-- ==== Sys2Proof/Word.lean ====
section
/-! DEFINITION. The word types of hxtio-core and the type of an indexed array held as data. -/

namespace Sys2Proof

/-- One byte of the stream (20_memory.md R60). -/
abbrev Byte := BitVec 8

/-- One sample, an unsigned 16-bit integer (00_scope.md R6, `SAMPLE_BITS`). -/
abbrev Sample := BitVec 16

/-- A host bus word (10_state.md R35). -/
abbrev Word := BitVec 32

/-- A 64-bit quantity: a coefficient pattern, a counter cell, `frames`, `cap`, `rd_buf`. -/
abbrev DWord := BitVec 64

/-- An internal array `A[i]` as the list of its (index, value) pairs, indices rising. What an unlisted index reads as
is said where the array is read. -/
abbrev CellList (α : Type) := List (Nat × α)

end Sys2Proof
end

