-- ==== Sys2Proof/Machine/Binary64.lean ====
section
/-! DEFINITION. IEEE 754 binary64, as far as the scaler and the calibrated histogram use it (00_scope.md R11,
41_calibration.md R138, R140): each operation computes the exact result as an integer count of units and rounds it once,
to nearest with ties to even. Subnormals are exact; there is no flush to zero and no exception flag.

The format itself is PRESUMED (log 11): the spec marks it general knowledge (93_implementation_defined.md G1). -/

namespace Sys2Proof.Machine

/-- A binary64 value. `fin neg m q` is `(-1)^neg * m * 2^(q - 1074)`; it is in canonical form when `m < 2^53`,
`q ≤ 2045`, and `2^52 ≤ m` or `q = 0`. There is one NaN: payloads and the sign of a NaN "have no observable effect"
(41_calibration.md R140). -/
inductive F64 where
  | nan
  | inf (neg : Bool)
  | fin (neg : Bool) (m : Nat) (q : Nat)
  deriving DecidableEq, Repr

/-- The finite values in the form the format stores. -/
def F64.canonical : F64 → Bool
  | .nan => true
  | .inf _ => true
  | .fin _ m q => decide (m < 2 ^ 53) && decide (q ≤ 2045) && (decide (2 ^ 52 ≤ m) || decide (q = 0))

/-- `fromBits64(w)`: sign bit 63, biased exponent in bits [62:52], fraction in bits [51:0] (00_scope.md R11). -/
def fromBits64 (w : DWord) : F64 :=
  let neg := w.getLsbD 63
  let e := (w.extractLsb' 52 11).toNat
  let f := (w.extractLsb' 0 52).toNat
  if e = 2047 then (if f = 0 then .inf neg else .nan)
  else if e = 0 then .fin neg f 0
  else .fin neg (2 ^ 52 + f) (e - 1)

/-- `bits64(a)` for a value in canonical form; a NaN is written as the quiet NaN 0x7FF8000000000000 of
95_test_vectors.md. The block itself never needs it (10_state.md R34). -/
def bits64 : F64 → DWord
  | .nan => 0x7FF8000000000000#64
  | .inf neg => BitVec.ofBool neg ++ 0x7FF#11 ++ 0#52
  | .fin neg m q =>
    BitVec.ofBool neg ++ BitVec.ofNat 11 (if 2 ^ 52 ≤ m then q + 1 else 0) ++ BitVec.ofNat 52 m

/-- The magnitude of a finite value, in units of 2^-1074. -/
def F64.units (m q : Nat) : Nat :=
  m * 2 ^ q

/-- A finite value, in units of 2^-1074. -/
def F64.signedUnits (neg : Bool) (m q : Nat) : Int :=
  if neg then -(F64.units m q : Int) else (F64.units m q : Int)

/-- A rounded significand put in its place: one carried out to 2^53 moves up one binade, and a value past the largest
finite one is an infinity, as rounding to nearest has it. -/
def packRounded (neg : Bool) (m q : Nat) : F64 :=
  let m' := if m = 2 ^ 53 then 2 ^ 52 else m
  let q' := if m = 2 ^ 53 then q + 1 else q
  if 2045 < q' then .inf neg else .fin neg m' q'

/-- Round the exact value `(-1)^neg * n / 2^sh`, in units of 2^-1074, to nearest with ties to even (00_scope.md R11).
`q` is the exponent that leaves a 53-bit significand, or 0 in the subnormal range; `d` bits are dropped. -/
def roundUnits (neg : Bool) (n sh : Nat) : F64 :=
  if n = 0 then .fin neg 0 0
  else
    let q := Nat.log2 n + 1 - (sh + 53)
    let d := q + sh
    let m := n / 2 ^ d
    let r := n % 2 ^ d
    if 2 ^ d < 2 * r ∨ (2 * r = 2 ^ d ∧ m % 2 = 1) then packRounded neg (m + 1) q else packRounded neg m q

/-- `f64(x)` of an unsigned integer, exact for `x < 2^53` (00_scope.md R11). -/
def f64OfNat (x : Nat) : F64 :=
  roundUnits false (x * 2 ^ 1074) 0

/-- The value with the other sign. -/
def fneg64 : F64 → F64
  | .nan => .nan
  | .inf neg => .inf (!neg)
  | .fin neg m q => .fin (!neg) m q

/-- `fmul64(a,b)` (00_scope.md R11): infinity times zero is NaN. -/
def fmul64 (a b : F64) : F64 :=
  match a, b with
  | .nan, _ => .nan
  | .inf _, .nan => .nan
  | .inf n1, .inf n2 => .inf (n1 ^^ n2)
  | .inf n1, .fin n2 m2 _ => if m2 = 0 then .nan else .inf (n1 ^^ n2)
  | .fin _ _ _, .nan => .nan
  | .fin n1 m1 _, .inf n2 => if m1 = 0 then .nan else .inf (n1 ^^ n2)
  | .fin n1 m1 q1, .fin n2 m2 q2 => roundUnits (n1 ^^ n2) (F64.units m1 q1 * F64.units m2 q2) 1074

/-- `fadd64(a,b)` (00_scope.md R11): infinities of opposite signs give NaN; an exact zero sum is +0, or -0 when both
operands are negative zeros. -/
def fadd64 (a b : F64) : F64 :=
  match a, b with
  | .nan, _ => .nan
  | .inf _, .nan => .nan
  | .inf n1, .inf n2 => if n1 = n2 then .inf n1 else .nan
  | .inf n1, .fin _ _ _ => .inf n1
  | .fin _ _ _, .nan => .nan
  | .fin _ _ _, .inf n2 => .inf n2
  | .fin n1 m1 q1, .fin n2 m2 q2 =>
    let z := F64.signedUnits n1 m1 q1 + F64.signedUnits n2 m2 q2
    if z = 0 then .fin (n1 && n2) 0 0 else roundUnits (decide (z < 0)) z.natAbs 0

/-- `fsub64(a,b)` (00_scope.md R11). -/
def fsub64 (a b : F64) : F64 :=
  fadd64 a (fneg64 b)

/-- `flt64(a,b)`: IEEE `a < b`, "false whenever either operand is NaN" (00_scope.md R11). -/
def flt64 (a b : F64) : Bool :=
  match a, b with
  | .nan, _ => false
  | .inf _, .nan => false
  | .inf n1, .inf n2 => n1 && !n2
  | .inf n1, .fin _ _ _ => n1
  | .fin _ _ _, .nan => false
  | .fin _ _ _, .inf n2 => !n2
  | .fin n1 m1 q1, .fin n2 m2 q2 => decide (F64.signedUnits n1 m1 q1 < F64.signedUnits n2 m2 q2)

/-- `floor_int(t)`: "the largest integer ≤ t, for finite t ≥ 0" (00_scope.md R11). It is applied to such a `t` only
(42_accumulator.md R164), so the other values have no bin to give. -/
def floorInt : F64 → Option Nat
  | .nan => none
  | .inf _ => none
  | .fin neg m q => if neg = true ∧ m ≠ 0 then none else some (F64.units m q / 2 ^ 1074)

end Sys2Proof.Machine
end

