-- ==== Sys2Proof/Machine/Cells.lean ====
section
/-! DEFINITION. Reading and writing an internal array held as a list of (index, value) pairs in rising order of index,
so that equal arrays are equal lists. -/

namespace Sys2Proof.Machine.Cells

/-- The value listed at index `i`, if one is. -/
def find {α : Type} : CellList α → Nat → Option α
  | [], _ => none
  | (k, v) :: rest, i => if i = k then some v else find rest i

/-- The element `A[i]` of an array whose unlisted elements are `d`. -/
def get {α : Type} (d : α) (c : CellList α) (i : Nat) : α :=
  (find c i).getD d

/-- List the value `v` at index `i`, in its place. -/
def insert {α : Type} : CellList α → Nat → α → CellList α
  | [], i, v => [(i, v)]
  | (k, w) :: rest, i, v =>
    if i < k then (i, v) :: (k, w) :: rest
    else if i = k then (i, v) :: rest
    else (k, w) :: insert rest i v

/-- List no value at index `i`. -/
def erase {α : Type} : CellList α → Nat → CellList α
  | [], _ => []
  | (k, w) :: rest, i => if i = k then rest else (k, w) :: erase rest i

/-- `A[i] <- v` in an array whose unlisted elements are `d`: writing `d` lists nothing, so the form stays canonical. -/
def put {α : Type} [DecidableEq α] (d : α) (c : CellList α) (i : Nat) (v : α) : CellList α :=
  if v = d then erase c i else insert c i v

/-- The indices rise strictly and lie below `n`. -/
abbrev Rising {α : Type} (n : Nat) (c : CellList α) : Prop :=
  (c.map Prod.fst).Pairwise (· < ·) ∧ ∀ e ∈ c, e.1 < n

/-- The canonical form of an array of `n` elements whose unlisted elements are `d`. -/
abbrev Canonical {α : Type} [DecidableEq α] (d : α) (n : Nat) (c : CellList α) : Prop :=
  Rising n c ∧ ∀ e ∈ c, e.2 ≠ d

end Sys2Proof.Machine.Cells
end

