-- ==== Sys2Proof/Config.lean ====
section
/-! DEFINITION. What one build of hxtio-core fixes (00_scope.md R8, R9) and the values the spec leaves unspecified
(93_implementation_defined.md U1 to U3).

The constants the source fixes (00_scope.md R6, R7) are written as numerals where the rules write them:
NROWS 80, NGROUPS 20, NCHAN 4, NCOLS 80, NPIX 6400, RECORD_BYTES 12800, RAW_BINS 8192, RAW_DIV 8, CAL_BINS 1000,
CAL_LO 0, CAL_HI 10000, CAL_SCALE 10. -/

namespace Sys2Proof

/-- `STREAM_BYTE_ORDER`, 00_scope.md R9. -/
inductive ByteOrder where
  | le
  | be
  deriving DecidableEq, Repr

/-- `REORDER_IMPL`, 00_scope.md R9 and 40_reorderer.md R115. -/
inductive ReorderImpl where
  | wiring
  | rom
  deriving DecidableEq, Repr

/-- The build parameters, which "a model takes as arguments" (00_scope.md R8, R9). -/
structure Build where
  /-- `SUM_W`: bits per sum-image cell. -/
  sumW : Nat
  /-- `HIST_W`: bits per histogram counter, both histograms. -/
  histW : Nat
  byteOrder : ByteOrder
  /-- `THRESH_SUB`: only `false` conforms to the source (41_calibration.md R139). -/
  threshSub : Bool
  reorderImpl : ReorderImpl
  deriving DecidableEq, Repr

/-- The defaults of 00_scope.md R8 and R9. `REORDER_IMPL` is "either" there: `wiring` is a DESIGN CHOICE (log 10). -/
def Build.spec : Build :=
  { sumW := 64, histW := 64, byteOrder := .le, threshSub := false, reorderImpl := .wiring }

/-- The ranges of 00_scope.md R8: `SUM_W` and `HIST_W` lie in 32..64. -/
def Build.ok (b : Build) : Bool :=
  decide (32 ≤ b.sumW) && decide (b.sumW ≤ 64) && decide (32 ≤ b.histW) && decide (b.histW ≤ 64)

/-- The three coefficient grids, 10_state.md R26. -/
inductive Grid where
  | slope
  | intercept
  | threshold
  deriving DecidableEq, Repr

/-- One value for each grid: `A[g]` with `g` a grid (10_state.md R26, R27). -/
structure PerGrid (α : Type) where
  slope : α
  intercept : α
  threshold : α
  deriving DecidableEq, Repr

namespace Config

/-- FREE VALUE `DRAW64` (43_driver.md R198, 93_implementation_defined.md U1): the value latched by the n-th
accumulator readback made while RUNNING. Nothing constrains it (log 7). -/
opaque draw64 : Nat → DWord

/-- FREE VALUE (10_state.md R52, 93_implementation_defined.md U2): what entry `s` of grid `g` holds after the
r-th reset until it is written, as `coefUnspecified r g s`. Nothing constrains it (log 8). -/
opaque coefUnspecified : Nat → Nat → Nat → DWord

/-- FREE VALUE (10_state.md R31, R52, 93_implementation_defined.md U3): what byte `j` of the frame buffer holds after
the r-th reset until it is written, as `fbufUnspecified r j`. Nothing constrains it (log 9). -/
opaque fbufUnspecified : Nat → Nat → Byte

end Config

end Sys2Proof
end

