-- ==== Sys2Proof/Syntax.lean ====
section
/-! DEFINITION. The operations of hxtio-core as data: what arrives on the two interfaces (30_encoding.md R81, R83), and
one constructor of `Instr` for each row of spec/opcode_table.json, in the table's order. -/

namespace Sys2Proof

/-- One access of the host register bus, format `BUS` (30_encoding.md R81): `dir` is true for a write; `wdata` is
"present when dir = 1". -/
structure BusAccess where
  dir : Bool
  addr : BitVec 6
  wdata : Word
  deriving DecidableEq, Repr

/-- One beat of the stream port, format `BEAT` (30_encoding.md R83). -/
structure Beat where
  keep : Bool
  last : Bool
  data : Byte
  deriving DecidableEq, Repr

/-- The operations. `addr[1:0]` of a bus access (20_memory.md R64) and the data of a beat with `keep = 0`
(30_encoding.md R83) are ignored, so they are no operands. -/
inductive Instr where
  /- Bus writes (30_encoding.md R81): the operand is `wdata`. -/
  | wrId (wdata : Word)
  | wrCmd (wdata : Word)
  | wrStatus (wdata : Word)
  | wrConfig (wdata : Word)
  | wrCapLo (wdata : Word)
  | wrCapHi (wdata : Word)
  | wrFramesLo (wdata : Word)
  | wrFramesHi (wdata : Word)
  | wrFill (wdata : Word)
  | wrCoefSel (wdata : Word)
  | wrCoefLo (wdata : Word)
  | wrCoefHi (wdata : Word)
  | wrCoefStat (wdata : Word)
  | wrRdCtrl (wdata : Word)
  | wrRdLo (wdata : Word)
  | wrRdHi (wdata : Word)
  /- Bus reads (30_encoding.md R81). -/
  | rdId
  | rdCmd
  | rdStatus
  | rdConfig
  | rdCapLo
  | rdCapHi
  | rdFramesLo
  | rdFramesHi
  | rdFill
  | rdCoefSel
  | rdCoefLo
  | rdCoefHi
  | rdCoefStat
  | rdRdCtrl
  | rdRdLo
  | rdRdHi
  /- Command words, the `wdata` of a write to CMD (30_encoding.md R82); `cmdIllegal` carries the illegal word. -/
  | cmdNop
  | cmdInit
  | cmdStart
  | cmdIllegal (word : Word)
  /- Stream beats (30_encoding.md R83). -/
  | beatNull
  | beatByte (data : Byte)
  | beatByteLast (data : Byte)
  | beatEos
  /- Internal operations of the frame commit, with no encoding. `calib x p` is CALIB of sample `x` at spatial index
  `p` (41_calibration.md R138; a spatial index is a 13-bit integer below 6400, 40_reorderer.md R111). -/
  | reorder
  | calib (x : Sample) (p : BitVec 13)
  | ingestSpatial
  | ingestRawHist
  | applyCalibration
  | ingestCalHist
  | frameCommit
  deriving DecidableEq, Repr

end Sys2Proof
end

