-- ==== Sys2Proof/Machine/State.lean ====
section
/-! DEFINITION. The state of hxtio-core: every element 10_state.md R20 to R34 names, the build parameters, and the
agents outside the block with what they have still to deliver (00_scope.md R15). Plain data. -/

namespace Sys2Proof.Machine

/-- The driver state, 10_state.md R22. STATUS.STATE never reads 3, so there is no fourth. -/
inductive Driver where
  | init
  | running
  | stopped
  deriving DecidableEq, Repr

/-- Why the last transition to STOPPED happened, 10_state.md R23. -/
inductive StopCause where
  | none
  | eos
  | cap
  deriving DecidableEq, Repr

/-- The agents of 00_scope.md R15. -/
inductive Agent where
  | bus
  | stream
  | reset
  deriving DecidableEq, Repr

/-- MODEL'S OWN (log 5): what the internal operations of one frame commit hand to each other, the spatial frame of REORDER
(40_reorderer.md R114) and the calibrated values of CALIB and APPLY_CALIBRATION (42_accumulator.md R163), both by spatial
index. "Each calibrated value exists only inside the frame commit that computes it" (10_state.md R34): a commit leaves
both lists empty. Unlisted entries read 0 and +0. -/
structure Wires where
  spatial : CellList Sample
  calibrated : CellList F64
  deriving DecidableEq, Repr

/-- Nothing on the wires. -/
def Wires.empty : Wires := { spatial := [], calibrated := [] }

/-- The state of the block and of its agents. -/
structure State where
  /-- The build parameters, 00_scope.md R8, R9; no step changes them. -/
  build : Build
  /-- `state`, 10_state.md R22. -/
  driver : Driver
  /-- `stop_cause`, 10_state.md R23. -/
  stopCause : StopCause
  /-- `frames`, 10_state.md R24. -/
  frames : DWord
  /-- `frames_latch_hi`, 10_state.md R24. -/
  framesLatchHi : Word
  /-- `cap_en`, 10_state.md R25. -/
  capEn : Bool
  /-- `cap`, 10_state.md R25. -/
  cap : DWord
  /-- `coef[g][s]`, 10_state.md R26: the entries written since reset, by spatial index. -/
  coef : PerGrid (CellList DWord)
  /-- `cnt[g]`, 10_state.md R27. -/
  cnt : PerGrid Nat
  /-- `ovf[g]`, 10_state.md R27. -/
  ovf : PerGrid Bool
  /-- `coef_sel`, 10_state.md R27. -/
  coefSel : Grid
  /-- `coef_lo_hold`, 10_state.md R27. -/
  coefLoHold : Word
  /-- `sum[s]`, 10_state.md R28; unlisted cells are 0. -/
  sum : CellList DWord
  /-- `rawhist[b]`, 10_state.md R29; unlisted bins are 0. -/
  rawhist : CellList DWord
  /-- `calhist[b]`, 10_state.md R30; unlisted bins are 0. -/
  calhist : CellList DWord
  /-- `fbuf[j]`, 10_state.md R31: the bytes written since reset, by stream position. -/
  fbuf : CellList Byte
  /-- `fill`, 10_state.md R31. -/
  fill : Nat
  /-- `cfg_err`, 10_state.md R32. -/
  cfgErr : Bool
  /-- `cmd_err`, 10_state.md R32. -/
  cmdErr : Bool
  /-- `sum_ovf`, 10_state.md R32. -/
  sumOvf : Bool
  /-- `rh_ovf`, 10_state.md R32. -/
  rhOvf : Bool
  /-- `ch_ovf`, 10_state.md R32. -/
  chOvf : Bool
  /-- `rd_sel`, 10_state.md R33. -/
  rdSel : BitVec 3
  /-- `rd_idx`, 10_state.md R33. -/
  rdIdx : BitVec 14
  /-- `rd_buf`, 10_state.md R33. -/
  rdBuf : DWord
  /-- MODEL'S OWN (log 4): `rdata` of the last bus read, as the host sees it (30_encoding.md R81). -/
  rdata : Word
  /-- MODEL'S OWN (log 5). -/
  wires : Wires
  /-- MODEL'S OWN (log 7): how many values DRAW64 has drawn. -/
  draws : Nat
  /-- MODEL'S OWN (log 8): how many resets have happened. -/
  resets : Nat
  /-- MODEL'S OWN (log 1, log 2): the accesses the host has still to make, in the order it makes them
  (20_memory.md R70). -/
  busQueue : List BusAccess
  /-- MODEL'S OWN (log 1, log 2): the beats the stream source offers, in stream order (20_memory.md R70). -/
  beats : List Beat
  /-- MODEL'S OWN (log 1): which agent moves next. The order between the agents is any interleaving
  (20_memory.md R70), so this is any list. -/
  sched : List Agent
  deriving DecidableEq, Repr

/-- How a step can stop. The block itself has no trap and never stops (60_exceptions.md R240). -/
inductive Fault where
  /-- Raised by CALIB of a spatial index past 6399, an array element that does not exist (10_state.md R26). Nothing
  that is fetched raises it. Safe: the model stops where the hardware has no such operation (log 15). -/
  | noSuchPixel
  deriving DecidableEq, Repr

/-- Why an instruction has no meaning. -/
inductive Refusal where
  /-- Raised by an arm of `exec` whose instruction has no meaning in the model yet. No arm is left so. Safe. -/
  | notModelled (mnemonic : String)
  deriving DecidableEq, Repr

/-- The state right after reset, 10_state.md R52. `coef` and `fbuf` list nothing: their entries are unspecified, which
the model draws as free values (log 8, log 9). The build is the spec's default (log 10), and the agents have nothing to
deliver (log 2). -/
def State.reset : State :=
  { build := Build.spec
    driver := .init
    stopCause := .none
    frames := 0#64
    framesLatchHi := 0#32
    capEn := false
    cap := 0#64
    coef := { slope := [], intercept := [], threshold := [] }
    cnt := { slope := 0, intercept := 0, threshold := 0 }
    ovf := { slope := false, intercept := false, threshold := false }
    coefSel := .slope
    coefLoHold := 0#32
    sum := []
    rawhist := []
    calhist := []
    fbuf := []
    fill := 0
    cfgErr := false
    cmdErr := false
    sumOvf := false
    rhOvf := false
    chOvf := false
    rdSel := 0#3
    rdIdx := 0#14
    rdBuf := 0#64
    rdata := 0#32
    wires := Wires.empty
    draws := 0
    resets := 0
    busQueue := []
    beats := []
    sched := [] }

end Sys2Proof.Machine
end

