-- ==== Sys2Proof/Machine/Operands.lean ====
section
/-! DEFINITION. Operand assembly (30_encoding.md R84 to R87, 20_memory.md R62): the fields of the words the host writes,
the halves of a 64-bit quantity, and the selection of one grid's value. -/

namespace Sys2Proof.Machine

/-- Bits [31:0] of a 64-bit quantity. -/
def lowWord (v : DWord) : Word := v.extractLsb' 0 32

/-- Bits [63:32] of a 64-bit quantity. -/
def highWord (v : DWord) : Word := v.extractLsb' 32 32

/-- `hi : lo`, `hi` in the upper bits (00_scope.md R10). -/
def joinWords (hi lo : Word) : DWord := hi ++ lo

/-- CONFIG's operand `CAP_EN = wdata[0]` (30_encoding.md R86). -/
def capEnOperand (wdata : Word) : Bool := wdata.getLsbD 0

/-- COEF_SEL's operand `GRID = wdata[1:0]`: "0 SLOPE, 1 INTERCEPT, 2 THRESHOLD, 3 illegal" (30_encoding.md R86). -/
def gridOperand (wdata : Word) : Option Grid :=
  match (wdata.extractLsb' 0 2).toNat with
  | 0 => some .slope
  | 1 => some .intercept
  | 2 => some .threshold
  | _ => none

/-- The code of a grid, 10_state.md R26. -/
def gridCode : Grid → Nat
  | .slope => 0
  | .intercept => 1
  | .threshold => 2

/-- RD_CTRL's operand `IDX = wdata[13:0]` (30_encoding.md R86). -/
def idxOperand (wdata : Word) : BitVec 14 := wdata.extractLsb' 0 14

/-- RD_CTRL's operand `SEL = wdata[18:16]` (30_encoding.md R86). -/
def selOperand (wdata : Word) : BitVec 3 := wdata.extractLsb' 16 3

/-- Sample decode, 20_memory.md R62: `b0` is the byte at position `2k` and `b1` the byte at position `2k+1`. -/
def assembleSample (order : ByteOrder) (b0 b1 : Byte) : Sample :=
  match order with
  | .le => b1 ++ b0
  | .be => b0 ++ b1

/-- `A[g]` of a value kept for each grid. -/
def gridGet {α : Type} (a : PerGrid α) (g : Grid) : α :=
  match g with
  | .slope => a.slope
  | .intercept => a.intercept
  | .threshold => a.threshold

/-- `A[g] <- v` of a value kept for each grid. -/
def gridSet {α : Type} (a : PerGrid α) (g : Grid) (v : α) : PerGrid α :=
  match g with
  | .slope => { a with slope := v }
  | .intercept => { a with intercept := v }
  | .threshold => { a with threshold := v }

end Sys2Proof.Machine
end

