-- ==== Sys2Proof/Machine/Flags.lean ====
section
/-! DEFINITION. The sticky flags and what STATUS shows of the state (10_state.md R32, R38, R53), the computed COEF_READY
(41_calibration.md R136), and the wrap of a counter cell (42_accumulator.md R161, R162, R164). -/

namespace Sys2Proof.Machine

/-- Adding `inc` to a `w`-bit cell: the cell modulo `2^w`, and whether the exact sum reached `2^w`
(42_accumulator.md R161, R162, R164). -/
def bumpCell (w : Nat) (cell : DWord) (inc : Nat) : DWord × Bool :=
  let t := cell.toNat + inc
  (BitVec.ofNat 64 (t % 2 ^ w), decide (2 ^ w ≤ t))

/-- `cnt[g] == 6400 and ovf[g] == 0`, 41_calibration.md R136. -/
def gridComplete (s : State) (g : Grid) : Bool :=
  decide (gridGet s.cnt g = 6400) && !gridGet s.ovf g

/-- `coef_ready`, computed and not stored, 41_calibration.md R136. -/
def coefReady (s : State) : Bool :=
  gridComplete s .slope && gridComplete s .intercept && gridComplete s .threshold

/-- STATUS.STATE: INIT = 0, RUNNING = 1, STOPPED = 2 (10_state.md R22). -/
def driverCode : Driver → Word
  | .init => 0#32
  | .running => 1#32
  | .stopped => 2#32

/-- STATUS.STOP_CAUSE: NONE = 0, EOS = 1, CAP = 2 (10_state.md R23). -/
def stopCauseCode : StopCause → Word
  | .none => 0#32
  | .eos => 1#32
  | .cap => 2#32

/-- A flag as a word, `zext_32(b)`. -/
def flagWord (b : Bool) : Word :=
  if b then 1#32 else 0#32

/-- STATUS.BYTE_ORDER: "0 if `STREAM_BYTE_ORDER = LE`, 1 if `BE`" (10_state.md R38). -/
def byteOrderIsBig : ByteOrder → Bool
  | .le => false
  | .be => true

/-- The word a read of STATUS returns, 43_driver.md R202 and 10_state.md R38. Bit 6, FMT_ERR, is hardwired 0
(60_exceptions.md R242), and bits [31:13] read 0. -/
def statusWord (s : State) : Word :=
  driverCode s.driver
    ||| (stopCauseCode s.stopCause <<< 2)
    ||| (flagWord s.cfgErr <<< 4)
    ||| (flagWord s.cmdErr <<< 5)
    ||| (flagWord s.sumOvf <<< 7)
    ||| (flagWord s.rhOvf <<< 8)
    ||| (flagWord s.chOvf <<< 9)
    ||| (flagWord (coefReady s) <<< 10)
    ||| (flagWord s.build.threshSub <<< 11)
    ||| (flagWord (byteOrderIsBig s.build.byteOrder) <<< 12)

/-- The word a read of COEF_STAT returns for the selected grid: `cnt` in bits [12:0], `ovf` in bit 13
(10_state.md R48, 43_driver.md R209). -/
def coefStatWord (s : State) : Word :=
  BitVec.ofNat 32 (gridGet s.cnt s.coefSel % 2 ^ 13) ||| (flagWord (gridGet s.ovf s.coefSel) <<< 13)

/-- The word a read of FILL returns: `fill` in bits [13:0] (10_state.md R44, 43_driver.md R207). -/
def fillWord (s : State) : Word :=
  BitVec.ofNat 32 (s.fill % 2 ^ 14)

/-- The word a read of RD_CTRL returns: IDX in bits [13:0], SEL in bits [18:16] (10_state.md R49, 43_driver.md R210). -/
def rdCtrlWord (s : State) : Word :=
  (s.rdSel.setWidth 32 <<< 16) ||| s.rdIdx.setWidth 32

/-- The word a read of COEF_SEL returns, `zext_32(coef_sel)` (43_driver.md R208). -/
def coefSelWord (s : State) : Word :=
  BitVec.ofNat 32 (gridCode s.coefSel)

end Sys2Proof.Machine
end

