-- ==== Sys2Proof/Machine/Reorder.lean ====
section
/-! DEFINITION. The index permutation of 40_reorderer.md: the map `P`, its inverse `Q`, the two realizations of R115, and
the reorder of one whole frame (R114). -/

namespace Sys2Proof.Machine

/-- The row of a raw index, 40_reorderer.md R110. -/
def rawRow (k : Nat) : Nat := k / 80

/-- The group of a raw index, 40_reorderer.md R110. -/
def rawGroup (k : Nat) : Nat := k % 80 / 4

/-- The channel of a raw index, 40_reorderer.md R110. -/
def rawChannel (k : Nat) : Nat := k % 4

/-- The forward map `P`, raw index to spatial index, 40_reorderer.md R111. -/
def P (k : Nat) : Nat :=
  rawRow k * 80 + (rawGroup k + rawChannel k * 20)

/-- The inverse map `Q`, spatial index to raw index, 40_reorderer.md R112. The block does not use it. -/
def Q (p : Nat) : Nat :=
  p / 80 * 80 + p % 80 % 20 * 4 + p % 80 / 20

/-- The three cascaded counters of the WIRING realization, 40_reorderer.md R115. -/
structure Counters where
  channel : Nat
  group : Nat
  row : Nat
  deriving DecidableEq, Repr

/-- The counters "advance once per sample in raw order": `channel` counts 0..3, `group` 0..19, `row` 0..79
(40_reorderer.md R115). -/
def advanceCounters (c : Counters) : Counters :=
  if c.channel < 3 then { c with channel := c.channel + 1 }
  else if c.group < 19 then { c with channel := 0, group := c.group + 1 }
  else if c.row < 79 then { channel := 0, group := 0, row := c.row + 1 }
  else { channel := 0, group := 0, row := 0 }

/-- The counters after `k` samples of a frame. -/
def countersAt : Nat → Counters
  | 0 => { channel := 0, group := 0, row := 0 }
  | k + 1 => advanceCounters (countersAt k)

/-- The write address the counters give, 40_reorderer.md R115. -/
def counterAddress (c : Counters) : Nat :=
  c.row * 80 + c.channel * 20 + c.group

/-- The permutation ROM, 6400 words of 13 bits, 40_reorderer.md R115 and 20_memory.md R60. -/
def reorderRom : List (BitVec 13) :=
  (List.range 6400).map fun k => BitVec.ofNat 13 (P k)

/-- The address generator: the spatial index of raw index `k`, by the realization the build has (40_reorderer.md R115). -/
def spatialIndex (impl : ReorderImpl) (k : Nat) : Nat :=
  match impl with
  | .wiring => P k
  | .rom => (reorderRom.getD k 0#13).toNat

/-- `for k in 0..6399`: the raw indices of one frame, in raw order. Its unfolding is by lemma only, so that no check
enumerates it unasked. -/
@[irreducible] def rawIndices : List Nat := List.range 6400

/-- REORDER of a whole frame (40_reorderer.md R114): `spatial[P(k)] <- raw[k]` for `k` in 0..6399, where `place` is the
address generator and `d` is what an unlisted cell of the result reads as. -/
def reorderFrame {α : Type} [DecidableEq α] (d : α) (place : Nat → Nat) (raw : Nat → α) : CellList α :=
  rawIndices.foldl (fun c k => Cells.put d c (place k) (raw k)) []

end Sys2Proof.Machine
end

