-- ==== Sys2Proof/Machine/Ops.lean ====
section
/-! DEFINITION. The named operations the meanings are written over: reading the arrays, recording an error, returning
read data, the operations of one frame commit, the commands, and the reset event. -/

namespace Sys2Proof.Machine

/-! ## Reading the arrays -/

/-- `sum[p]`, 10_state.md R28. -/
def sumAt (s : State) (p : Nat) : DWord := Cells.get 0#64 s.sum p

/-- `rawhist[b]`, 10_state.md R29. -/
def rawhistAt (s : State) (b : Nat) : DWord := Cells.get 0#64 s.rawhist b

/-- `calhist[b]`, 10_state.md R30. -/
def calhistAt (s : State) (b : Nat) : DWord := Cells.get 0#64 s.calhist b

/-- `coef[g][p]`, 10_state.md R26: what was written since reset, else the entry the reset drew
(93_implementation_defined.md U2, log 8). -/
def coefAt (s : State) (g : Grid) (p : Nat) : DWord :=
  Cells.get (Config.coefUnspecified s.resets (gridCode g) p) (gridGet s.coef g) p

/-- `fbuf[j]`, 10_state.md R31: what was written since reset, else an unspecified byte (log 9). -/
def fbufAt (s : State) (j : Nat) : Byte :=
  Cells.get (Config.fbufUnspecified s.resets j) s.fbuf j

/-- `sample(k)` of the record in the frame buffer, 20_memory.md R62. -/
def sample (s : State) (k : Nat) : Sample :=
  assembleSample s.build.byteOrder (fbufAt s (2 * k)) (fbufAt s (2 * k + 1))

/-- The spatial index `P(k)` of raw index `k`, from the build's address generator (40_reorderer.md R115). One map places
samples and coefficients alike (R116). -/
def place (s : State) (k : Nat) : Nat := spatialIndex s.build.reorderImpl k

/-- `spatialFrame[p]` on the wires, 42_accumulator.md R160. -/
def spatialAt (s : State) (p : Nat) : Sample := Cells.get 0#16 s.wires.spatial p

/-- The calibrated value at pixel `p` on the wires, 42_accumulator.md R163. -/
def calibratedAt (s : State) (p : Nat) : F64 := Cells.get (.fin false 0 0) s.wires.calibrated p

/-! ## Errors and read data

The block has no trap and saves nothing on an error (60_exceptions.md R240): `raise <Error>` "sets the sticky STATUS bit
named by the error and has no other effect" (00_scope.md R12). There is no return from one (60_exceptions.md R248). -/

/-- The errors an operation raises (60_exceptions.md R241). The overflow bits are set by the ingests themselves. -/
def raiseConfigError (s : State) : State := { s with cfgErr := true }

/-- `cmd_err <- 1`, 60_exceptions.md R244. -/
def raiseCmdError (s : State) : State := { s with cmdErr := true }

/-- A bus read returns `v` to the host (30_encoding.md R81). -/
def returnData (s : State) (v : Word) : State := { s with rdata := v }

/-- A write that has an effect in INIT only: outside INIT it is ignored and `cmd_err <- 1` (60_exceptions.md R244). -/
def inInit (s : State) (effect : State → State) : State :=
  if s.driver = .init then effect s else raiseCmdError s

/-! ## Counter arrays -/

/-- Scatter-add into an array of `w`-bit cells (42_accumulator.md R169): each update (index, increment) in turn, with
the sticky record of whether a cell wrapped. -/
def scatterAdd (w : Nat) : List (Nat × Nat) → CellList DWord × Bool → CellList DWord × Bool
  | [], acc => acc
  | (a, inc) :: rest, (c, wrapped) =>
    let r := bumpCell w (Cells.get 0#64 c a) inc
    scatterAdd w rest (Cells.put 0#64 c a r.1, wrapped || r.2)

/-! ## The frame operations (42_accumulator.md) -/

/-- REORDER of the record in the frame buffer onto the wires, 40_reorderer.md R114. -/
def reorderRecord (s : State) : State :=
  { s with wires := { s.wires with spatial := reorderFrame 0#16 (place s) (sample s) } }

/-- The additions of INGEST_SPATIAL: `x_k` at `s_k = P(k)` for `k` in 0..6399 (42_accumulator.md R161). -/
def spatialUpdates (s : State) : List (Nat × Nat) :=
  rawIndices.map fun k => (place s k, (spatialAt s (place s k)).toNat)

/-- INGEST_SPATIAL, 42_accumulator.md R161: the spatial frame is added elementwise into `sum`. -/
def ingestSpatialFrame (s : State) : State :=
  let r := scatterAdd s.build.sumW (spatialUpdates s) (s.sum, false)
  { s with sum := r.1, sumOvf := s.sumOvf || r.2 }

/-- The raw bin of a sample, `x >> 3`, if it is in range; it always is (42_accumulator.md R162). -/
def rawBin (x : Sample) : Option Nat :=
  let b := (x >>> 3).toNat
  if b ≤ 8191 then some b else none

/-- The increments of INGEST_RAW_HIST, in raw order (42_accumulator.md R162). -/
def rawHistUpdates (s : State) : List (Nat × Nat) :=
  rawIndices.filterMap fun k => (rawBin (sample s k)).map fun b => (b, 1)

/-- INGEST_RAW_HIST, 42_accumulator.md R162. -/
def ingestRawHistogram (s : State) : State :=
  let r := scatterAdd s.build.histW (rawHistUpdates s) (s.rawhist, false)
  { s with rawhist := r.1, rhOvf := s.rhOvf || r.2 }

/-- CALIB of sample `x` at spatial index `p`, 41_calibration.md R138. `THRESH_SUB = true` is the requester's formula,
which is "not the source's behaviour" (R139). -/
def calibValue (s : State) (x : Sample) (p : Nat) : F64 :=
  let sl := fromBits64 (coefAt s .slope p)
  let ic := fromBits64 (coefAt s .intercept p)
  let th := fromBits64 (coefAt s .threshold p)
  let raw := f64OfNat x.toNat
  if s.build.threshSub then fadd64 (fmul64 (fsub64 raw th) sl) ic else fadd64 (fmul64 raw sl) ic

/-- CALIB's value `v` of pixel `p` on the wires. -/
def calibPixel (s : State) (x : Sample) (p : Nat) : State :=
  { s with wires := { s.wires with calibrated := Cells.put (.fin false 0 0) s.wires.calibrated p (calibValue s x p) } }

/-- APPLY_CALIBRATION, 42_accumulator.md R163: `v_k = CALIB(x_k, s_k)` for every pixel of the spatial frame. -/
def applyCalibrationFrame (s : State) : State :=
  { s with
    wires := { s.wires with
      calibrated := reorderFrame (.fin false 0 0) (place s) fun k =>
        calibValue s (spatialAt s (place s k)) (place s k) } }

/-- The calibrated bin of a value, 42_accumulator.md R164: the domain test `0 < v < 10000`, then
`floor_int(fmul64(v, 10.0))` if it is at most 999; else the value is dropped. -/
def calBin (v : F64) : Option Nat :=
  if flt64 (f64OfNat 0) v && flt64 v (f64OfNat 10000) then
    match floorInt (fmul64 v (f64OfNat 10)) with
    | some b => if b ≤ 999 then some b else none
    | none => none
  else none

/-- The increments of INGEST_CAL_HIST (42_accumulator.md R164). -/
def calHistUpdates (s : State) : List (Nat × Nat) :=
  rawIndices.filterMap fun k => (calBin (calibratedAt s (place s k))).map fun b => (b, 1)

/-- INGEST_CAL_HIST, 42_accumulator.md R164. -/
def ingestCalHistogram (s : State) : State :=
  let r := scatterAdd s.build.histW (calHistUpdates s) (s.calhist, false)
  { s with calhist := r.1, chOvf := s.chOvf || r.2 }

/-- The end of FRAME_COMMIT, 42_accumulator.md R165: count the frame, start the next record, test the cap. The wires are
empty again (10_state.md R34). -/
def countFrame (s : State) : State :=
  let n := s.frames + 1#64
  let stop := s.capEn && n == s.cap
  { s with
    frames := n
    fill := 0
    driver := if stop then .stopped else s.driver
    stopCause := if stop then .cap else s.stopCause
    wires := Wires.empty }

/-- FRAME_COMMIT, 42_accumulator.md R165: decode, reorder, ingest, calibrate, ingest, count, all in one step. -/
def commitFrame (s : State) : State :=
  countFrame (ingestCalHistogram (applyCalibrationFrame (ingestRawHistogram (ingestSpatialFrame (reorderRecord s)))))

/-! ## Stream operations (43_driver.md) -/

/-- A beat is accepted only while RUNNING; otherwise it is held and nothing changes (43_driver.md R212). -/
def whenAccepted (s : State) (effect : State → State) : State :=
  if s.driver = .running then effect s else s

/-- BEAT BYTE, accepted: the byte is stored, and the 12800th commits the frame (43_driver.md R214). -/
def acceptByte (data : Byte) (s : State) : State :=
  let stored := { s with fbuf := Cells.insert s.fbuf s.fill data }
  if s.fill = 12799 then commitFrame stored else { stored with fill := s.fill + 1 }

/-- END_OF_STREAM, 43_driver.md R217. -/
def endOfStream (s : State) : State :=
  { s with fill := 0, driver := .stopped, stopCause := .eos }

/-- BEAT BYTE_LAST, accepted: the byte, then the end of the stream unless the cap stopped the block in this step
(43_driver.md R215, 60_exceptions.md R246). -/
def acceptLastByte (data : Byte) (s : State) : State :=
  let t := acceptByte data s
  if t.driver = .running then endOfStream t else t

/-! ## Commands (43_driver.md) -/

/-- CMD INIT, 43_driver.md R193. -/
def commandInit (s : State) : State :=
  if s.driver = .running then raiseCmdError s
  else
    { s with
      sum := []
      rawhist := []
      calhist := []
      frames := 0#64
      fill := 0
      stopCause := .none
      cfgErr := false
      cmdErr := false
      sumOvf := false
      rhOvf := false
      chOvf := false
      driver := .init }

/-- CMD START, 43_driver.md R194. A cap of zero is reached at once. -/
def commandStart (s : State) : State :=
  if s.driver ≠ .init then raiseCmdError s
  else if !coefReady s then raiseConfigError s
  else if s.capEn && s.cap == 0#64 then
    { s with cfgErr := false, driver := .stopped, stopCause := .cap }
  else { s with cfgErr := false, driver := .running }

/-! ## Coefficient load (41_calibration.md) -/

/-- Select a grid and restart its load, 41_calibration.md R133. -/
def selectGrid (g : Grid) (s : State) : State :=
  { s with coefSel := g, cnt := gridSet s.cnt g 0, ovf := gridSet s.ovf g false }

/-- Commit one coefficient at the next raw position of the selected grid, stored in spatial order; the 6401st and later
values are discarded (41_calibration.md R135). -/
def commitCoefficient (wdata : Word) (s : State) : State :=
  let g := s.coefSel
  let n := gridGet s.cnt g
  if n < 6400 then
    { s with
      coef := gridSet s.coef g (Cells.insert (gridGet s.coef g) (place s n) (joinWords wdata s.coefLoHold))
      cnt := gridSet s.cnt g (n + 1) }
  else { s with ovf := gridSet s.ovf g true }

/-! ## Readback (43_driver.md) -/

/-- The length of the array each SEL selects, 43_driver.md R198; 6 and 7 select none. -/
def readbackLength (sel : BitVec 3) : Nat :=
  match sel.toNat with
  | 0 => 6400
  | 1 => 8192
  | 2 => 1000
  | 3 => 6400
  | 4 => 6400
  | 5 => 6400
  | _ => 0

/-- The element a legal RD_CTRL write latches, 43_driver.md R198, when it is specified. -/
def readbackValue (s : State) (sel : BitVec 3) (idx : Nat) : DWord :=
  match sel.toNat with
  | 0 => sumAt s idx
  | 1 => rawhistAt s idx
  | 2 => calhistAt s idx
  | 3 => coefAt s .slope idx
  | 4 => coefAt s .intercept idx
  | 5 => coefAt s .threshold idx
  | _ => 0#64

/-- WR RD_CTRL, 43_driver.md R198. The accumulators read a drawn value while RUNNING: "unspecified: any 64-bit value". -/
def latchReadback (wdata : Word) (s : State) : State :=
  let idx := idxOperand wdata
  let sel := selOperand wdata
  let t := { s with rdIdx := idx, rdSel := sel }
  if 6 ≤ sel.toNat ∨ readbackLength sel ≤ idx.toNat then { raiseCmdError t with rdBuf := 0#64 }
  else if sel.toNat ≤ 2 ∧ s.driver = .running then
    { t with rdBuf := Config.draw64 s.draws, draws := s.draws + 1 }
  else { t with rdBuf := readbackValue s sel idx.toNat }

/-- RD FRAMES_LO, 43_driver.md R205: the low word is returned and the high word latched. -/
def readFramesLo (s : State) : State :=
  { returnData s (lowWord s.frames) with framesLatchHi := highWord s.frames }

/-! ## Reset -/

/-- The reset event, 70_reset_and_hazards.md R260: every element takes its value of 10_state.md R52, with new
unspecified contents (log 8, log 9). It is an event of the block alone: the build, what the agents have still to
deliver and what the host last read are as before (log 14). -/
def resetEvent (s : State) : State :=
  { State.reset with
    build := s.build
    rdata := s.rdata
    draws := s.draws
    resets := s.resets + 1
    busQueue := s.busQueue
    beats := s.beats
    sched := s.sched }

end Sys2Proof.Machine
end

