-- ==== Sys2Proof/Machine/BusRead.lean ====
section
/-! DEFINITION. The meanings of the bus reads (43_driver.md R200 to R211). "Every read returns a 32-bit value and changes no state,
except FRAMES_LO". -/

namespace Sys2Proof.Machine

/-- RD ID (0x00), 43_driver.md R200. -/
def execRdId (s : State) : Host.Outcome State Fault Refusal :=
  .next (returnData s 0x48585401#32)

/-- RD CMD (0x04), a write-only register, reads 0 (43_driver.md R201). -/
def execRdCmd (s : State) : Host.Outcome State Fault Refusal :=
  .next (returnData s 0x00000000#32)

/-- RD STATUS (0x08), 43_driver.md R202. -/
def execRdStatus (s : State) : Host.Outcome State Fault Refusal :=
  .next (returnData s (statusWord s))

/-- RD CONFIG (0x0C), 43_driver.md R203: `zext_32(cap_en)`. -/
def execRdConfig (s : State) : Host.Outcome State Fault Refusal :=
  .next (returnData s (flagWord s.capEn))

/-- RD CAP_LO (0x10), 43_driver.md R204. -/
def execRdCapLo (s : State) : Host.Outcome State Fault Refusal :=
  .next (returnData s (lowWord s.cap))

/-- RD CAP_HI (0x14), 43_driver.md R204. -/
def execRdCapHi (s : State) : Host.Outcome State Fault Refusal :=
  .next (returnData s (highWord s.cap))

/-- RD FRAMES_LO (0x18), 43_driver.md R205: the one read with a side effect (20_memory.md R66). -/
def execRdFramesLo (s : State) : Host.Outcome State Fault Refusal :=
  .next (readFramesLo s)

/-- RD FRAMES_HI (0x1C), 43_driver.md R206: the latched half, not the live one. -/
def execRdFramesHi (s : State) : Host.Outcome State Fault Refusal :=
  .next (returnData s s.framesLatchHi)

/-- RD FILL (0x20), 43_driver.md R207. -/
def execRdFill (s : State) : Host.Outcome State Fault Refusal :=
  .next (returnData s (fillWord s))

/-- RD COEF_SEL (0x24), 43_driver.md R208. -/
def execRdCoefSel (s : State) : Host.Outcome State Fault Refusal :=
  .next (returnData s (coefSelWord s))

/-- RD COEF_LO (0x28), a write-only register, reads 0 (43_driver.md R201). -/
def execRdCoefLo (s : State) : Host.Outcome State Fault Refusal :=
  .next (returnData s 0x00000000#32)

/-- RD COEF_HI (0x2C), a write-only register, reads 0 (43_driver.md R201). -/
def execRdCoefHi (s : State) : Host.Outcome State Fault Refusal :=
  .next (returnData s 0x00000000#32)

/-- RD COEF_STAT (0x30), 43_driver.md R209. -/
def execRdCoefStat (s : State) : Host.Outcome State Fault Refusal :=
  .next (returnData s (coefStatWord s))

/-- RD RD_CTRL (0x34), 43_driver.md R210. -/
def execRdRdCtrl (s : State) : Host.Outcome State Fault Refusal :=
  .next (returnData s (rdCtrlWord s))

/-- RD RD_LO (0x38), 43_driver.md R211. -/
def execRdRdLo (s : State) : Host.Outcome State Fault Refusal :=
  .next (returnData s (lowWord s.rdBuf))

/-- RD RD_HI (0x3C), 43_driver.md R211. -/
def execRdRdHi (s : State) : Host.Outcome State Fault Refusal :=
  .next (returnData s (highWord s.rdBuf))

end Sys2Proof.Machine
end

