-- ==== Sys2Proof/Machine/BusWrite.lean ====
section
/-! DEFINITION. The meanings of the bus writes, but for the coefficient load (43_driver.md R191, R195 to R199). -/

namespace Sys2Proof.Machine

/-- WR ID (0x00): "The write is ignored and `cmd_err <- 1`" (43_driver.md R199). -/
def execWrId (_wdata : Word) (s : State) : Host.Outcome State Fault Refusal :=
  .next (raiseCmdError s)

/-- WR STATUS (0x08): "The write is ignored and `cmd_err <- 1`" (43_driver.md R199). -/
def execWrStatus (_wdata : Word) (s : State) : Host.Outcome State Fault Refusal :=
  .next (raiseCmdError s)

/-- WR FRAMES_LO (0x18): "The write is ignored and `cmd_err <- 1`" (43_driver.md R199). -/
def execWrFramesLo (_wdata : Word) (s : State) : Host.Outcome State Fault Refusal :=
  .next (raiseCmdError s)

/-- WR FRAMES_HI (0x1C): "The write is ignored and `cmd_err <- 1`" (43_driver.md R199). -/
def execWrFramesHi (_wdata : Word) (s : State) : Host.Outcome State Fault Refusal :=
  .next (raiseCmdError s)

/-- WR FILL (0x20): "The write is ignored and `cmd_err <- 1`" (43_driver.md R199). -/
def execWrFill (_wdata : Word) (s : State) : Host.Outcome State Fault Refusal :=
  .next (raiseCmdError s)

/-- WR COEF_STAT (0x30): "The write is ignored and `cmd_err <- 1`" (43_driver.md R199). -/
def execWrCoefStat (_wdata : Word) (s : State) : Host.Outcome State Fault Refusal :=
  .next (raiseCmdError s)

/-- WR RD_LO (0x38): "The write is ignored and `cmd_err <- 1`" (43_driver.md R199). -/
def execWrRdLo (_wdata : Word) (s : State) : Host.Outcome State Fault Refusal :=
  .next (raiseCmdError s)

/-- WR RD_HI (0x3C): "The write is ignored and `cmd_err <- 1`" (43_driver.md R199). -/
def execWrRdHi (_wdata : Word) (s : State) : Host.Outcome State Fault Refusal :=
  .next (raiseCmdError s)

/-- Decode and run a command word, 43_driver.md R191: an illegal word sets `cmd_err` and has no other effect. -/
def runCommand (wdata : Word) (s : State) : State :=
  if wdata.extractLsb' 4 28 ≠ 0#28 ∨ 2 < (wdata.extractLsb' 0 4).toNat then raiseCmdError s
  else
    match (wdata.extractLsb' 0 4).toNat with
    | 0 => s
    | 1 => commandInit s
    | _ => commandStart s

/-- WR CMD (0x04), 43_driver.md R191. -/
def execWrCmd (wdata : Word) (s : State) : Host.Outcome State Fault Refusal :=
  .next (runCommand wdata s)

/-- WR CONFIG (0x0C), 43_driver.md R195: `cap_en <- wdata[0]` in INIT. -/
def execWrConfig (wdata : Word) (s : State) : Host.Outcome State Fault Refusal :=
  .next (inInit s fun t => { t with capEn := capEnOperand wdata })

/-- WR CAP_LO (0x10), 43_driver.md R196: `cap[31:0] <- wdata` in INIT. -/
def execWrCapLo (wdata : Word) (s : State) : Host.Outcome State Fault Refusal :=
  .next (inInit s fun t => { t with cap := joinWords (highWord t.cap) wdata })

/-- WR CAP_HI (0x14), 43_driver.md R197: `cap[63:32] <- wdata` in INIT. -/
def execWrCapHi (wdata : Word) (s : State) : Host.Outcome State Fault Refusal :=
  .next (inInit s fun t => { t with cap := joinWords wdata (lowWord t.cap) })

/-- WR RD_CTRL (0x34), 43_driver.md R198; legal in every state. -/
def execWrRdCtrl (wdata : Word) (s : State) : Host.Outcome State Fault Refusal :=
  .next (latchReadback wdata s)

end Sys2Proof.Machine
end

