-- ==== Sys2Proof/Machine/Coefficient.lean ====
section
/-! DEFINITION. The meanings of the coefficient-load writes (41_calibration.md R133 to R135). -/

namespace Sys2Proof.Machine

/-- WR COEF_SEL (0x24), 41_calibration.md R133: in INIT with a legal GRID, select the grid and restart its load;
otherwise `cmd_err <- 1` and "nothing else changes". -/
def execWrCoefSel (wdata : Word) (s : State) : Host.Outcome State Fault Refusal :=
  match gridOperand wdata with
  | some g => .next (inInit s (selectGrid g))
  | none => .next (raiseCmdError s)

/-- WR COEF_LO (0x28), 41_calibration.md R134: `coef_lo_hold <- wdata` in INIT. -/
def execWrCoefLo (wdata : Word) (s : State) : Host.Outcome State Fault Refusal :=
  .next (inInit s fun t => { t with coefLoHold := wdata })

/-- WR COEF_HI (0x2C), 41_calibration.md R135: in INIT, commit one coefficient at the next raw position. -/
def execWrCoefHi (wdata : Word) (s : State) : Host.Outcome State Fault Refusal :=
  .next (inInit s (commitCoefficient wdata))

end Sys2Proof.Machine
end

