-- ==== Sys2Proof/Machine/Command.lean ====
section
/-! DEFINITION. The meanings of the command words (43_driver.md R191 to R194). -/

namespace Sys2Proof.Machine

/-- CMD NOP, 43_driver.md R192: "no effect in any state". -/
def execCmdNop (s : State) : Host.Outcome State Fault Refusal :=
  .next s

/-- CMD INIT, 43_driver.md R193. -/
def execCmdInit (s : State) : Host.Outcome State Fault Refusal :=
  .next (commandInit s)

/-- CMD START, 43_driver.md R194. -/
def execCmdStart (s : State) : Host.Outcome State Fault Refusal :=
  .next (commandStart s)

/-- An illegal command word, 43_driver.md R191: "`cmd_err <- 1` // CMD_ILLEGAL: no other effect". -/
def execCmdIllegal (_word : Word) (s : State) : Host.Outcome State Fault Refusal :=
  .next (raiseCmdError s)

end Sys2Proof.Machine
end

