-- ==== Sys2Proof/Machine/Pipeline.lean ====
section
/-! DEFINITION. The meanings of the internal operations of the frame commit (40_reorderer.md R114, 41_calibration.md R138,
42_accumulator.md R161 to R165). They have no encoding and are never fetched; `commitFrame` runs them in this order
inside the beat that completes a record. -/

namespace Sys2Proof.Machine

/-- REORDER, 40_reorderer.md R114: the record's samples in spatial order, on the wires. -/
def execReorder (s : State) : Host.Outcome State Fault Refusal :=
  .next (reorderRecord s)

/-- CALIB of sample `x` at spatial index `p`, 41_calibration.md R138; there are 6400 pixels (10_state.md R26, log 15). -/
def execCalib (x : Sample) (p : BitVec 13) (s : State) : Host.Outcome State Fault Refusal :=
  if p.toNat < 6400 then .next (calibPixel s x p.toNat) else .fault .noSuchPixel

/-- INGEST_SPATIAL, 42_accumulator.md R161. -/
def execIngestSpatial (s : State) : Host.Outcome State Fault Refusal :=
  .next (ingestSpatialFrame s)

/-- INGEST_RAW_HIST, 42_accumulator.md R162. -/
def execIngestRawHist (s : State) : Host.Outcome State Fault Refusal :=
  .next (ingestRawHistogram s)

/-- APPLY_CALIBRATION, 42_accumulator.md R163. -/
def execApplyCalibration (s : State) : Host.Outcome State Fault Refusal :=
  .next (applyCalibrationFrame s)

/-- INGEST_CAL_HIST, 42_accumulator.md R164. -/
def execIngestCalHist (s : State) : Host.Outcome State Fault Refusal :=
  .next (ingestCalHistogram s)

/-- FRAME_COMMIT, 42_accumulator.md R165. -/
def execFrameCommit (s : State) : Host.Outcome State Fault Refusal :=
  .next (commitFrame s)

end Sys2Proof.Machine
end

