-- ==== Sys2Proof/Machine/Stream.lean ====
section
/-! DEFINITION. The meanings of the stream beats (43_driver.md R212 to R217). Outside RUNNING a beat is held: "no step, no state
change" (95_test_vectors.md B9); the fetch leaves it offered. -/

namespace Sys2Proof.Machine

/-- BEAT NULL, 43_driver.md R213: no effect. -/
def execBeatNull (s : State) : Host.Outcome State Fault Refusal :=
  .next (whenAccepted s fun t => t)

/-- BEAT BYTE, 43_driver.md R214. -/
def execBeatByte (data : Byte) (s : State) : Host.Outcome State Fault Refusal :=
  .next (whenAccepted s (acceptByte data))

/-- BEAT BYTE_LAST, 43_driver.md R215. -/
def execBeatByteLast (data : Byte) (s : State) : Host.Outcome State Fault Refusal :=
  .next (whenAccepted s (acceptLastByte data))

/-- BEAT EOS, 43_driver.md R216. -/
def execBeatEos (s : State) : Host.Outcome State Fault Refusal :=
  .next (whenAccepted s endOfStream)

end Sys2Proof.Machine
end

