-- ==== Sys2Proof/Machine/Dispatch.lean ====
section
/-! DEFINITION. One arm per constructor of `Instr`, each one call of its meaning. -/

namespace Sys2Proof.Machine

def exec (i : Instr) (s : State) : Host.Outcome State Fault Refusal :=
  match i with
  | .wrId wdata => Sys2Proof.Machine.execWrId wdata s
  | .wrCmd wdata => Sys2Proof.Machine.execWrCmd wdata s
  | .wrStatus wdata => Sys2Proof.Machine.execWrStatus wdata s
  | .wrConfig wdata => Sys2Proof.Machine.execWrConfig wdata s
  | .wrCapLo wdata => Sys2Proof.Machine.execWrCapLo wdata s
  | .wrCapHi wdata => Sys2Proof.Machine.execWrCapHi wdata s
  | .wrFramesLo wdata => Sys2Proof.Machine.execWrFramesLo wdata s
  | .wrFramesHi wdata => Sys2Proof.Machine.execWrFramesHi wdata s
  | .wrFill wdata => Sys2Proof.Machine.execWrFill wdata s
  | .wrCoefSel wdata => Sys2Proof.Machine.execWrCoefSel wdata s
  | .wrCoefLo wdata => Sys2Proof.Machine.execWrCoefLo wdata s
  | .wrCoefHi wdata => Sys2Proof.Machine.execWrCoefHi wdata s
  | .wrCoefStat wdata => Sys2Proof.Machine.execWrCoefStat wdata s
  | .wrRdCtrl wdata => Sys2Proof.Machine.execWrRdCtrl wdata s
  | .wrRdLo wdata => Sys2Proof.Machine.execWrRdLo wdata s
  | .wrRdHi wdata => Sys2Proof.Machine.execWrRdHi wdata s
  | .rdId => Sys2Proof.Machine.execRdId s
  | .rdCmd => Sys2Proof.Machine.execRdCmd s
  | .rdStatus => Sys2Proof.Machine.execRdStatus s
  | .rdConfig => Sys2Proof.Machine.execRdConfig s
  | .rdCapLo => Sys2Proof.Machine.execRdCapLo s
  | .rdCapHi => Sys2Proof.Machine.execRdCapHi s
  | .rdFramesLo => Sys2Proof.Machine.execRdFramesLo s
  | .rdFramesHi => Sys2Proof.Machine.execRdFramesHi s
  | .rdFill => Sys2Proof.Machine.execRdFill s
  | .rdCoefSel => Sys2Proof.Machine.execRdCoefSel s
  | .rdCoefLo => Sys2Proof.Machine.execRdCoefLo s
  | .rdCoefHi => Sys2Proof.Machine.execRdCoefHi s
  | .rdCoefStat => Sys2Proof.Machine.execRdCoefStat s
  | .rdRdCtrl => Sys2Proof.Machine.execRdRdCtrl s
  | .rdRdLo => Sys2Proof.Machine.execRdRdLo s
  | .rdRdHi => Sys2Proof.Machine.execRdRdHi s
  | .cmdNop => Sys2Proof.Machine.execCmdNop s
  | .cmdInit => Sys2Proof.Machine.execCmdInit s
  | .cmdStart => Sys2Proof.Machine.execCmdStart s
  | .cmdIllegal word => Sys2Proof.Machine.execCmdIllegal word s
  | .beatNull => Sys2Proof.Machine.execBeatNull s
  | .beatByte data => Sys2Proof.Machine.execBeatByte data s
  | .beatByteLast data => Sys2Proof.Machine.execBeatByteLast data s
  | .beatEos => Sys2Proof.Machine.execBeatEos s
  | .reorder => Sys2Proof.Machine.execReorder s
  | .calib x p => Sys2Proof.Machine.execCalib x p s
  | .ingestSpatial => Sys2Proof.Machine.execIngestSpatial s
  | .ingestRawHist => Sys2Proof.Machine.execIngestRawHist s
  | .applyCalibration => Sys2Proof.Machine.execApplyCalibration s
  | .ingestCalHist => Sys2Proof.Machine.execIngestCalHist s
  | .frameCommit => Sys2Proof.Machine.execFrameCommit s

end Sys2Proof.Machine
end

