-- ==== Sys2Proof/WellFormed.lean ====
section
/-! DEFINITION. Which terms of `Instr` are operations the spec has. -/

namespace Sys2Proof

/-- "A command word is legal iff RSVD = 0 and OP ∈ {0,1,2}" (30_encoding.md R82). -/
def legalCommand (w : Word) : Bool :=
  w == 0#32 || w == 1#32 || w == 2#32

/-- Two checks: CMD_ILLEGAL carries a word that is not a legal command (30_encoding.md R82, R89), and CALIB names one
of the 6400 pixels (41_calibration.md R138, 10_state.md R26). Every other term is well formed: no operand of it has
an illegal value as an encoding (30_encoding.md R90). -/
def Instr.wellFormed : Instr → Bool
  | .wrId _ | .wrCmd _ | .wrStatus _ | .wrConfig _ | .wrCapLo _ | .wrCapHi _ | .wrFramesLo _ | .wrFramesHi _ => true
  | .wrFill _ | .wrCoefSel _ | .wrCoefLo _ | .wrCoefHi _ | .wrCoefStat _ | .wrRdCtrl _ | .wrRdLo _ | .wrRdHi _ => true
  | .rdId | .rdCmd | .rdStatus | .rdConfig | .rdCapLo | .rdCapHi | .rdFramesLo | .rdFramesHi => true
  | .rdFill | .rdCoefSel | .rdCoefLo | .rdCoefHi | .rdCoefStat | .rdRdCtrl | .rdRdLo | .rdRdHi => true
  | .cmdNop | .cmdInit | .cmdStart => true
  | .cmdIllegal w => !legalCommand w
  | .beatNull | .beatByte _ | .beatByteLast _ | .beatEos => true
  | .calib _ p => decide (p.toNat < 6400)
  | .reorder | .ingestSpatial | .ingestRawHist | .applyCalibration | .ingestCalHist | .frameCommit => true

end Sys2Proof
end

