-- ==== Sys2Proof/Decode.lean ====
section
/-! DEFINITION. Decoding what arrives on the two interfaces, and after it the encoder, both from 30_encoding.md R80 to
R90 and spec/opcode_table.json.

The interface decides the format (R80), so each format has its own decoder, and each is total: every key, every command
word and every beat has a meaning (10_state.md R35, 30_encoding.md R90). `decodeBytes` decodes the packed notation laid
out as bytes, and rejects by name what is no packed word. -/

namespace Sys2Proof

/-- The three operation formats of 30_encoding.md R80. -/
inductive Format where
  | bus
  | cmd
  | beat
  deriving DecidableEq, Repr

/-- An operation in the packed notation of 30_encoding.md R81 to R83: a bus key `dir<<6 | addr` with its `wdata` beside
it, a command word, or a beat word `keep<<9 | last<<8 | data`. -/
inductive Encoded where
  | bus (key : BitVec 7) (wdata : Word)
  | cmd (word : Word)
  | beat (word : BitVec 10)
  deriving DecidableEq, Repr

/-- The registers in the order of the map of 10_state.md R35. -/
inductive Reg where
  | id
  | cmd
  | status
  | config
  | capLo
  | capHi
  | framesLo
  | framesHi
  | fill
  | coefSel
  | coefLo
  | coefHi
  | coefStat
  | rdCtrl
  | rdLo
  | rdHi
  deriving DecidableEq, Repr

/-- The map of 10_state.md R35: offsets 0x00, 0x04, ..., 0x3C. -/
def registerMap : List Reg :=
  [.id, .cmd, .status, .config, .capLo, .capHi, .framesLo, .framesHi,
   .fill, .coefSel, .coefLo, .coefHi, .coefStat, .rdCtrl, .rdLo, .rdHi]

/-- "The register is selected by `addr[5:2]`. Bits `addr[1:0]` are ignored" (20_memory.md R64). -/
def selectRegister (addr : BitVec 6) : Reg :=
  registerMap[(addr.extractLsb' 2 4).toNat]'(addr.extractLsb' 2 4).isLt

/-- The operation of a bus write to `r` (30_encoding.md R81). -/
def writeInstr (r : Reg) (wdata : Word) : Instr :=
  match r with
  | .id => .wrId wdata
  | .cmd => .wrCmd wdata
  | .status => .wrStatus wdata
  | .config => .wrConfig wdata
  | .capLo => .wrCapLo wdata
  | .capHi => .wrCapHi wdata
  | .framesLo => .wrFramesLo wdata
  | .framesHi => .wrFramesHi wdata
  | .fill => .wrFill wdata
  | .coefSel => .wrCoefSel wdata
  | .coefLo => .wrCoefLo wdata
  | .coefHi => .wrCoefHi wdata
  | .coefStat => .wrCoefStat wdata
  | .rdCtrl => .wrRdCtrl wdata
  | .rdLo => .wrRdLo wdata
  | .rdHi => .wrRdHi wdata

/-- The operation of a bus read of `r` (30_encoding.md R81). -/
def readInstr (r : Reg) : Instr :=
  match r with
  | .id => .rdId
  | .cmd => .rdCmd
  | .status => .rdStatus
  | .config => .rdConfig
  | .capLo => .rdCapLo
  | .capHi => .rdCapHi
  | .framesLo => .rdFramesLo
  | .framesHi => .rdFramesHi
  | .fill => .rdFill
  | .coefSel => .rdCoefSel
  | .coefLo => .rdCoefLo
  | .coefHi => .rdCoefHi
  | .coefStat => .rdCoefStat
  | .rdCtrl => .rdRdCtrl
  | .rdLo => .rdRdLo
  | .rdHi => .rdRdHi

/-- "The operation is selected by the pair (`dir`, `addr[5:2]`)" (30_encoding.md R81). -/
def decodeBus (a : BusAccess) : Instr :=
  if a.dir then writeInstr (selectRegister a.addr) a.wdata else readInstr (selectRegister a.addr)

/-- The command word of a write to CMD (30_encoding.md R82, 43_driver.md R191): OP in bits [3:0], RSVD in bits [31:4].
CMD_ILLEGAL is "decoded last". -/
def decodeCmd (word : Word) : Instr :=
  let op := word.extractLsb' 0 4
  let rsvd := word.extractLsb' 4 28
  if rsvd ≠ 0#28 then .cmdIllegal word
  else if op = 0#4 then .cmdNop
  else if op = 1#4 then .cmdInit
  else if op = 2#4 then .cmdStart
  else .cmdIllegal word

/-- The four beat kinds of 30_encoding.md R83. -/
def decodeBeat (b : Beat) : Instr :=
  match b.keep, b.last with
  | false, false => .beatNull
  | true, false => .beatByte b.data
  | true, true => .beatByteLast b.data
  | false, true => .beatEos

/-- A bus access from its packed key `dir<<6 | addr[5:0]` (30_encoding.md R81). -/
def accessOfKey (key : BitVec 7) (wdata : Word) : BusAccess :=
  { dir := key.getLsbD 6, addr := key.extractLsb' 0 6, wdata := wdata }

/-- A beat from its packed word `keep<<9 | last<<8 | data` (30_encoding.md R83). -/
def beatOfWord (word : BitVec 10) : Beat :=
  { keep := word.getLsbD 9, last := word.getLsbD 8, data := word.extractLsb' 0 8 }

/-- Decoding the packed notation; total, since every packed word has a meaning. -/
def decode : Encoded → Instr
  | .bus key wdata => decodeBus (accessOfKey key wdata)
  | .cmd word => decodeCmd word
  | .beat word => decodeBeat (beatOfWord word)

/-- Why a list of bytes is no packed operation. -/
inductive Reject where
  /-- The list ends before the operation does. -/
  | truncated
  /-- Bit 7 of a key byte is set; a key has 7 bits (30_encoding.md R81). -/
  | keyBitSeven
  /-- A bit above bit 9 of a beat is set; a beat has 10 bits (30_encoding.md R83). -/
  | beatBitsAboveNine
  deriving DecidableEq, Repr

/-- A 32-bit word from its four bytes, the least significant first. -/
def wordOfBytes (b0 b1 b2 b3 : Byte) : Word :=
  b3 ++ b2 ++ b1 ++ b0

/-- The packed word at the front of a list of bytes, and the bytes after it. DESIGN CHOICE (log 12): the spec packs
operations as numbers and gives them no byte layout; here a key is one byte, with `wdata` after it in a write, a command
word four bytes and a beat two, the least significant byte first. The machine never reads this layout. -/
def unpackBytes : Format → List Byte → Except Reject (Encoded × List Byte)
  | .bus, key :: rest =>
    if key.getLsbD 7 then .error .keyBitSeven
    else if key.getLsbD 6 then
      match rest with
      | b0 :: b1 :: b2 :: b3 :: more => .ok (.bus (key.extractLsb' 0 7) (wordOfBytes b0 b1 b2 b3), more)
      | _ => .error .truncated
    else .ok (.bus (key.extractLsb' 0 7) 0#32, rest)
  | .cmd, b0 :: b1 :: b2 :: b3 :: more => .ok (.cmd (wordOfBytes b0 b1 b2 b3), more)
  | .beat, b0 :: b1 :: more =>
    if b1.extractLsb' 2 6 = 0#6 then .ok (.beat (b1.extractLsb' 0 2 ++ b0), more) else .error .beatBitsAboveNine
  | _, _ => .error .truncated

/-- The instruction at the front of a list of bytes that came by an interface, and the bytes after it. -/
def decodeBytes (f : Format) (bytes : List Byte) : Except Reject (Instr × List Byte) :=
  match unpackBytes f bytes with
  | .ok (e, rest) => .ok (decode e, rest)
  | .error r => .error r

/-- The five bytes of `w`, the least significant first; five bytes hold the longest packed operation, a bus write. -/
def tableBytes (w : Nat) : List Byte :=
  [BitVec.ofNat 8 w, BitVec.ofNat 8 (w >>> 8), BitVec.ofNat 8 (w >>> 16), BitVec.ofNat 8 (w >>> 24),
   BitVec.ofNat 8 (w >>> 32)]

/-- The format of a table row by its width in whole bytes: BUS rows have 7 bits (a longer word carries `wdata` too),
BEAT rows 10, CMD rows 32 (30_encoding.md R81 to R83). -/
def tableFormat (nbits : Nat) : Format :=
  if nbits ≤ 8 then .bus else if nbits ≤ 16 then .beat else if nbits ≤ 32 then .cmd else .bus

/-- The instruction the decoder reads from a row's word, numbered as spec/opcode_table.json numbers its bits. -/
def decodeTableWord (nbits w : Nat) : Option Instr :=
  match decodeBytes (tableFormat nbits) (tableBytes w) with
  | .ok (i, _) => some i
  | .error _ => none

/-! The encoder: each row's `match` in spec/opcode_table.json, with the row's operand beside it. Ignored bits are
written as zero (DESIGN CHOICE, log 12). -/

/-- The packed beat word `keep<<9 | last<<8 | data` (30_encoding.md R83). -/
def beatWord (keep last : Bool) (data : Byte) : BitVec 10 :=
  BitVec.ofBool keep ++ BitVec.ofBool last ++ data

/-- The packed word of an instruction; the INTERNAL rows have none (30_encoding.md, "The reorder, calibrate and ingest
operations ... have no encoding"). -/
def encode : Instr → Option Encoded
  | .wrId wdata => some (.bus 0x40#7 wdata)
  | .wrCmd wdata => some (.bus 0x44#7 wdata)
  | .wrStatus wdata => some (.bus 0x48#7 wdata)
  | .wrConfig wdata => some (.bus 0x4C#7 wdata)
  | .wrCapLo wdata => some (.bus 0x50#7 wdata)
  | .wrCapHi wdata => some (.bus 0x54#7 wdata)
  | .wrFramesLo wdata => some (.bus 0x58#7 wdata)
  | .wrFramesHi wdata => some (.bus 0x5C#7 wdata)
  | .wrFill wdata => some (.bus 0x60#7 wdata)
  | .wrCoefSel wdata => some (.bus 0x64#7 wdata)
  | .wrCoefLo wdata => some (.bus 0x68#7 wdata)
  | .wrCoefHi wdata => some (.bus 0x6C#7 wdata)
  | .wrCoefStat wdata => some (.bus 0x70#7 wdata)
  | .wrRdCtrl wdata => some (.bus 0x74#7 wdata)
  | .wrRdLo wdata => some (.bus 0x78#7 wdata)
  | .wrRdHi wdata => some (.bus 0x7C#7 wdata)
  | .rdId => some (.bus 0x00#7 0#32)
  | .rdCmd => some (.bus 0x04#7 0#32)
  | .rdStatus => some (.bus 0x08#7 0#32)
  | .rdConfig => some (.bus 0x0C#7 0#32)
  | .rdCapLo => some (.bus 0x10#7 0#32)
  | .rdCapHi => some (.bus 0x14#7 0#32)
  | .rdFramesLo => some (.bus 0x18#7 0#32)
  | .rdFramesHi => some (.bus 0x1C#7 0#32)
  | .rdFill => some (.bus 0x20#7 0#32)
  | .rdCoefSel => some (.bus 0x24#7 0#32)
  | .rdCoefLo => some (.bus 0x28#7 0#32)
  | .rdCoefHi => some (.bus 0x2C#7 0#32)
  | .rdCoefStat => some (.bus 0x30#7 0#32)
  | .rdRdCtrl => some (.bus 0x34#7 0#32)
  | .rdRdLo => some (.bus 0x38#7 0#32)
  | .rdRdHi => some (.bus 0x3C#7 0#32)
  | .cmdNop => some (.cmd 0x00000000#32)
  | .cmdInit => some (.cmd 0x00000001#32)
  | .cmdStart => some (.cmd 0x00000002#32)
  | .cmdIllegal word => some (.cmd word)
  | .beatNull => some (.beat 0x000#10)
  | .beatByte data => some (.beat (beatWord true false data))
  | .beatByteLast data => some (.beat (beatWord true true data))
  | .beatEos => some (.beat 0x100#10)
  | .reorder => none
  | .calib _ _ => none
  | .ingestSpatial => none
  | .ingestRawHist => none
  | .applyCalibration => none
  | .ingestCalHist => none
  | .frameCommit => none

/-- The four bytes of a word, the least significant first (log 12). -/
def bytesOfWord (w : Word) : List Byte :=
  [w.extractLsb' 0 8, w.extractLsb' 8 8, w.extractLsb' 16 8, w.extractLsb' 24 8]

/-- A packed operation in the byte layout `unpackBytes` reads (log 12). -/
def packBytes : Encoded → List Byte
  | .bus key wdata => if key.getLsbD 6 then (0#1 ++ key) :: bytesOfWord wdata else [0#1 ++ key]
  | .cmd word => bytesOfWord word
  | .beat word => [word.extractLsb' 0 8, 0#6 ++ word.extractLsb' 8 2]

/-- Which interface format an encoded operation has. -/
def Encoded.format : Encoded → Format
  | .bus _ _ => .bus
  | .cmd _ => .cmd
  | .beat _ => .beat

end Sys2Proof
end

