-- ==== Sys2Proof/Machine/Fetch.lean ====
section
/-! DEFINITION. Taking the next turn: whose it is, what that agent delivers, and what it decodes to (00_scope.md R13,
R15, 20_memory.md R70, 43_driver.md R212). -/

namespace Sys2Proof.Machine

/-- What a turn comes to: an instruction to run in a state that has moved past it, or a turn that runs none. -/
inductive Turn where
  | quiet (s : State)
  | run (i : Instr) (s : State)
  deriving DecidableEq, Repr

/-- The beats still offered after the stream's turn: the front one is consumed only when it is accepted, in RUNNING; else
it "stays offered" (43_driver.md R212). -/
def offeredAfter (s : State) (front : Beat) (others : List Beat) : List Beat :=
  if s.driver = .running then others else front :: others

/-- The host bus master's turn: its oldest access not yet made, if it has one. -/
def busTurn (s : State) : Turn :=
  match s.busQueue with
  | [] => .quiet s
  | a :: rest => .run (decodeBus a) { s with busQueue := rest }

/-- The stream source's turn: the beat at the front, if it offers one. -/
def streamTurn (s : State) : Turn :=
  match s.beats with
  | [] => .quiet s
  | b :: rest => .run (decodeBeat b) { s with beats := offeredAfter s b rest }

/-- The next turn, by the schedule. "The block performs no step on its own" (00_scope.md R15): with no turn left, or with
nothing to deliver, the block does not change (log 3). -/
def nextTurn (s : State) : Turn :=
  match s.sched with
  | [] => .quiet s
  | .bus :: rest => busTurn { s with sched := rest }
  | .stream :: rest => streamTurn { s with sched := rest }
  | .reset :: rest => .quiet (resetEvent { s with sched := rest })

/-- The bus access of a row's word: a command word travels as the `wdata` of a write to CMD, key 0x44 (30_encoding.md R80,
R82); any other word is a key with its `wdata` above it (log 12). -/
def accessOfTableWord (nbits w : Nat) : BusAccess :=
  match tableFormat nbits with
  | .cmd => accessOfKey 0x44#7 (BitVec.ofNat 32 w)
  | _ => accessOfKey (BitVec.ofNat 7 w) (BitVec.ofNat 32 (w >>> 8))

/-- `s` with a row's word delivered next: at the front of the interface its format belongs to, with the turn going to
that interface's agent (log 2). -/
def deliverWord (s : State) (nbits w : Nat) : State :=
  match tableFormat nbits with
  | .beat => { s with beats := beatOfWord (BitVec.ofNat 10 w) :: s.beats, sched := .stream :: s.sched }
  | _ => { s with busQueue := accessOfTableWord nbits w :: s.busQueue, sched := .bus :: s.sched }

end Sys2Proof.Machine
end

