-- ==== Sys2Proof/Machine/Step.lean ====
section
/-! DEFINITION. One step of the block: exactly one completed bus access, one beat, or one reset (00_scope.md R13). -/

namespace Sys2Proof.Machine

/-- One step, the whole effect of the next turn, atomic (00_scope.md R13, 20_memory.md R65). -/
def step (s : State) : Host.Outcome State Fault Refusal :=
  match nextTurn s with
  | .quiet t => .next t
  | .run i t => exec i t

/-- `s` with a table row's word where the next step fetches (log 2). -/
def State.withFetchWord (s : State) (nbits w : Nat) : State :=
  deliverWord s nbits w

end Sys2Proof.Machine
end

