-- ==== Sys2Proof/Machine/Memory.lean ====
section
/-! DEFINITION. The canonical form of the internal arrays of 20_memory.md R60, so that equal arrays are equal lists. -/

namespace Sys2Proof.Machine

/-- The arrays list their entries by rising index within their length. `sum`, `rawhist` and `calhist`, whose unlisted
cells read 0, list no 0. `coef` and `fbuf` list what has been written since reset; an unlisted entry of theirs is a free
value, with which no value can be compared, so nothing is left out of the list for being equal to it (log 8, log 9). -/
abbrev Memory.wf (s : State) : Prop :=
  Cells.Canonical 0#64 6400 s.sum ∧ Cells.Canonical 0#64 8192 s.rawhist ∧ Cells.Canonical 0#64 1000 s.calhist ∧
  Cells.Rising 6400 s.coef.slope ∧ Cells.Rising 6400 s.coef.intercept ∧ Cells.Rising 6400 s.coef.threshold ∧
  Cells.Rising 12800 s.fbuf

end Sys2Proof.Machine
end

