-- ==== Sys2Proof/Safety.lean ====
section
/-! DEFINITION. What a safe run of hxtio-core is: the consistency every step keeps, the conservation of counts,
what a correctly rounded result is, and a step that does not stop. -/

namespace Sys2Proof.Machine

/-- The consistency of a state that the rules of the spec keep. It rules out states no run reaches. -/
structure Inv (s : State) : Prop where
  /-- The parameters lie in their ranges (00_scope.md R8). -/
  build : s.build.ok = true
  /-- The arrays are in canonical form. -/
  arrays : Memory.wf s
  /-- A sum cell has `SUM_W` bits (10_state.md R28). -/
  sumWidth : ∀ p, (sumAt s p).toNat < 2 ^ s.build.sumW
  /-- A raw bin has `HIST_W` bits (10_state.md R29). -/
  rawWidth : ∀ b, (rawhistAt s b).toNat < 2 ^ s.build.histW
  /-- A calibrated bin has `HIST_W` bits (10_state.md R30). -/
  calWidth : ∀ b, (calhistAt s b).toNat < 2 ^ s.build.histW
  /-- `fill ∈ [0, 12800)` (10_state.md R31). -/
  fillBound : s.fill < 12800
  /-- No partial record outside RUNNING (43_driver.md R212, R217). -/
  fillIdle : s.driver ≠ .running → s.fill = 0
  /-- The accepted bytes of the record are in the frame buffer (10_state.md R31), so a commit "reads only entries written
  in the current record" (93_implementation_defined.md U3). -/
  recordBytes : ∀ j, j < s.fill → (Cells.find s.fbuf j).isSome = true
  /-- `cnt[g]` is an integer 0..6400 (10_state.md R27). -/
  cntBound : ∀ g, gridGet s.cnt g ≤ 6400
  /-- `ovf[g]` is set only after `cnt[g]` has reached 6400 (10_state.md R27). -/
  ovfFull : ∀ g, gridGet s.ovf g = true → gridGet s.cnt g = 6400
  /-- The values loaded since the grid was selected stand at their spatial places (41_calibration.md R135). -/
  loaded : ∀ g i, i < gridGet s.cnt g → (Cells.find (gridGet s.coef g) (P i)).isSome = true
  /-- Outside INIT the table is the complete one START accepted (41_calibration.md R137). -/
  tableReady : s.driver ≠ .init → coefReady s = true
  /-- A cause is recorded exactly in STOPPED (10_state.md R23, 43_driver.md R193). -/
  cause : s.stopCause = .none ↔ s.driver ≠ .stopped
  /-- In INIT the accumulators and their flags are clear (43_driver.md R193, 70_reset_and_hazards.md R260). -/
  initClear : s.driver = .init → s.frames = 0#64 ∧ s.sum = [] ∧ s.rawhist = [] ∧ s.calhist = [] ∧
    s.sumOvf = false ∧ s.rhOvf = false ∧ s.chOvf = false
  /-- While RUNNING with a cap, the cap is still ahead (42_accumulator.md R165, 43_driver.md R194). -/
  capAhead : s.driver = .running → s.capEn = true → s.frames.toNat < s.cap.toNat
  /-- Stopped by the cap means that exactly `cap` frames were counted (10_state.md R23). -/
  capReached : s.stopCause = .cap → s.capEn = true ∧ s.frames = s.cap
  /-- No calibrated frame outside a commit (10_state.md R34). -/
  wiresQuiet : s.wires = Wires.empty

/-- Conservation after `commits` commits since the last clear, whose samples add up to `total` (42_accumulator.md R168). A
calibrated bin that wraps only loses counts, so its bound needs no flag. -/
structure Conserved (commits total : Nat) (s : State) : Prop where
  /-- `frames` counts the commits modulo 2^64 (10_state.md R24). -/
  frames : s.frames.toNat = commits % 2 ^ 64
  /-- No raw sample is ever dropped. -/
  raw : s.rhOvf = false → ∑ b ∈ Finset.range 8192, (rawhistAt s b).toNat = 6400 * commits
  /-- A calibrated value is counted once or dropped. -/
  cal : ∑ b ∈ Finset.range 1000, (calhistAt s b).toNat ≤ 6400 * commits
  /-- Each committed sample is added to the sum image once. -/
  sum : s.sumOvf = false → ∑ p ∈ Finset.range 6400, (sumAt s p).toNat = total

/-- The number a finite value stands for (00_scope.md R11); an infinity and a NaN stand for none, and get 0. -/
def F64.value : F64 → ℚ
  | .nan => 0
  | .inf _ => 0
  | .fin neg m q => (if neg then -1 else 1) * (m * 2 ^ q / 2 ^ 1074)

/-- The number halfway between the largest finite binary64 value and the one after it. -/
def overflowBound : ℚ := (2 ^ 54 - 1) * 2 ^ 970

/-- `v` is the number `x` rounded once, to nearest with ties to even (00_scope.md R11): an infinity of the sign of `x` from
the bound on, else a binary64 value of the sign of `x` that no finite one is nearer to, with an even significand where
another is as near. The sign of a zero result is left out: it is unobservable (41_calibration.md R140). -/
def IsRounded (x : ℚ) (v : F64) : Prop :=
  match v with
  | .nan => False
  | .inf neg => if neg then x ≤ -overflowBound else overflowBound ≤ x
  | .fin neg m q =>
    (F64.fin neg m q).canonical = true ∧ |x| < overflowBound ∧ (0 < x → neg = false) ∧ (x < 0 → neg = true) ∧
    ∀ neg' m' q', (F64.fin neg' m' q').canonical = true →
      |x - (F64.fin neg m q).value| ≤ |x - (F64.fin neg' m' q').value| ∧
      (|x - (F64.fin neg m q).value| = |x - (F64.fin neg' m' q').value| →
        (F64.fin neg m q).value ≠ (F64.fin neg' m' q').value → m % 2 = 0)

/-- The causes of CMD_ERR, the complete list of 60_exceptions.md R244: whether running `i` in `s` is an illegal or
ill-timed access. -/
def cmdErrorCause (i : Instr) (s : State) : Prop :=
  match i with
  | .wrCmd w => (w ≠ 0#32 ∧ w ≠ 1#32 ∧ w ≠ 2#32) ∨ (w = 1#32 ∧ s.driver = .running) ∨ (w = 2#32 ∧ s.driver ≠ .init)
  | .cmdIllegal _ => True
  | .cmdInit => s.driver = .running
  | .cmdStart => s.driver ≠ .init
  | .wrConfig _ | .wrCapLo _ | .wrCapHi _ => s.driver ≠ .init
  | .wrCoefSel w => s.driver ≠ .init ∨ w.toNat % 4 = 3
  | .wrCoefLo _ | .wrCoefHi _ => s.driver ≠ .init
  | .wrRdCtrl w => 6 ≤ w.toNat / 2 ^ 16 % 8 ∨ ([6400, 8192, 1000, 6400, 6400, 6400].getD (w.toNat / 2 ^ 16 % 8) 0) ≤ w.toNat % 2 ^ 14
  | .wrId _ | .wrStatus _ | .wrFramesLo _ | .wrFramesHi _ | .wrFill _ | .wrCoefStat _ | .wrRdLo _ | .wrRdHi _ => True
  | .rdId | .rdCmd | .rdStatus | .rdConfig | .rdCapLo | .rdCapHi | .rdFramesLo | .rdFramesHi => False
  | .rdFill | .rdCoefSel | .rdCoefLo | .rdCoefHi | .rdCoefStat | .rdRdCtrl | .rdRdLo | .rdRdHi => False
  | .cmdNop => False
  | .beatNull | .beatByte _ | .beatByteLast _ | .beatEos => False
  | .reorder | .calib _ _ | .ingestSpatial | .ingestRawHist | .applyCalibration | .ingestCalHist | .frameCommit => False

/-- The five sticky flags are cleared by CMD INIT where it is accepted (43_driver.md R193, R53). -/
def clearsFlags (i : Instr) (s : State) : Prop :=
  (i = .cmdInit ∨ i = .wrCmd 1#32) ∧ s.driver ≠ .running

/-- The next step completes: the block keeps accepting accesses after any error (60_exceptions.md R240). -/
def Completes (s : State) : Prop := ∃ t, step s = .next t

end Sys2Proof.Machine
end

