-- ==== Sys2Proof/Certificates/Slice0/Obligations.lean ====
section
/-! DEFINITION. The statements for the provers, from the numbered rules of spec/. A statement of a next state says what
changes and, as `t = { s with ... }`, that nothing else does. -/

open Sys2Proof Sys2Proof.Machine

/-! ## Encoding -/

/-- Words written out from 30_encoding.md R81 to R83 decode to the operations they stand for. A sanity
statement; that `wdata` stands above the key byte is the model's layout (log 12). -/
def Obligations.DecodesTableWords : Prop :=
  decodeTableWord 8 0x44 = some (.wrCmd 0#32) ∧ decodeTableWord 40 0x0001000C74 = some (.wrRdCtrl 0x0001000C#32) ∧
  decodeTableWord 8 0x08 = some .rdStatus ∧ decodeTableWord 8 0x0B = some .rdStatus ∧
  decodeTableWord 8 0x3C = some .rdRdHi ∧ decodeTableWord 32 0x00000002 = some .cmdStart ∧
  decodeTableWord 32 0x00000012 = some (.cmdIllegal 0x12#32) ∧ decodeTableWord 16 0x2AB = some (.beatByte 0xAB#8) ∧
  decodeTableWord 16 0x302 = some (.beatByteLast 0x02#8) ∧ decodeTableWord 16 0x100 = some .beatEos ∧
  decodeTableWord 16 0x000 = some .beatNull

/-- The operation of a bus access is selected by `dir` and `addr[5:2]`; `addr[1:0]` is ignored (20_memory.md R64,
30_encoding.md R81). -/
def Obligations.BusDecodeIgnoresLowAddressBits : Prop :=
  ∀ a b : BusAccess, a.dir = b.dir → a.wdata = b.wdata → a.addr.toNat / 4 = b.addr.toNat / 4 → decodeBus a = decodeBus b

/-- Decoding what the encoder writes gives the instruction back, with every operand at every value it admits. -/
def Obligations.DecodeEncode : Prop :=
  ∀ (i : Instr) (e : Encoded), i.wellFormed = true → encode i = some e → decode e = i

/-- Every packed word decodes to a well-formed instruction, and encoding that gives the word back but for the bits the
spec says are ignored: `addr[1:0]` and a read's `wdata` (R64, R81), and the data of a beat with `keep = 0` (R83). -/
def Obligations.EncodeDecodeUpToIgnoredBits : Prop :=
  ∀ e : Encoded, (decode e).wellFormed = true ∧
    encode (decode e) = some (match e with
      | .bus key wdata => .bus (key &&& 0x7C#7) (if key.getLsbD 6 then wdata else 0#32)
      | .cmd word => .cmd word
      | .beat word => .beat (if word.getLsbD 9 then word else word &&& 0x300#10))

/-- The byte layout of log 12 loses nothing: unpacking the bytes of a packed word gives it back and leaves what follows.
A bus read carries no `wdata` (30_encoding.md R81). The layout is the model's choice. -/
def Obligations.BytesRoundTrip : Prop :=
  ∀ (e : Encoded) (rest : List Byte), (∀ key wdata, e = .bus key wdata → key.getLsbD 6 = false → wdata = 0#32) →
    unpackBytes e.format (packBytes e ++ rest) = .ok (e, rest)

/-! ## The step -/

/-- When the next turn is the host's, the step is the decoded access, run in the state that has moved past it
(00_scope.md R13). That the agents' queues and the order of their turns are data of the state is the model's choice
(log 1). -/
def Obligations.StepRunsBusAccess : Prop :=
  ∀ (s : State) (a : BusAccess) (more : List BusAccess) (rest : List Agent),
    s.sched = .bus :: rest → s.busQueue = a :: more →
    step s = exec (decodeBus a) { s with sched := rest, busQueue := more }

/-- While RUNNING, when the next turn is the stream's, the step is the decoded beat, consumed (00_scope.md R13, 43_driver.md
R212); the queue and the schedule are the model's (log 1). -/
def Obligations.StepRunsAcceptedBeat : Prop :=
  ∀ (s : State) (b : Beat) (more : List Beat) (rest : List Agent),
    s.driver = .running → s.sched = .stream :: rest → s.beats = b :: more →
    step s = exec (decodeBeat b) { s with sched := rest, beats := more }

/-- Outside RUNNING a beat of any kind is held: it changes nothing and stays offered (43_driver.md R212). That such
a turn is a step of the model is the model's choice (log 3). -/
def Obligations.HeldBeatStaysOffered : Prop :=
  ∀ s : State, s.driver ≠ .running →
    (∀ rest, s.sched = .stream :: rest → step s = .next { s with sched := rest }) ∧
    (∀ d, exec .beatNull s = .next s ∧ exec (.beatByte d) s = .next s ∧ exec (.beatByteLast d) s = .next s ∧
      exec .beatEos s = .next s)

/-- "The block performs no step on its own" (00_scope.md R15): with no turn left the state does not change, and an agent
with nothing to deliver only passes its turn. That such a turn is a step of the model is the model's choice (log 3). -/
def Obligations.BlockNeverMovesAlone : Prop :=
  ∀ s : State, (s.sched = [] → step s = .next s) ∧
    (∀ rest, s.sched = .bus :: rest → s.busQueue = [] → step s = .next { s with sched := rest }) ∧
    (∀ rest, s.sched = .stream :: rest → s.beats = [] → step s = .next { s with sched := rest })

/-- The reset event sets every element of the block to its value of 10_state.md R52, at any time (70_reset_and_hazards.md
R260); unspecified entries read free values. That each reset draws them anew, numbered by `resets`, is the model's choice (log 8,
log 9), and so is what the agents keep (log 14). -/
def Obligations.ResetEventSetsEveryElement : Prop :=
  ∀ (s : State) (rest : List Agent), s.sched = .reset :: rest →
    ∃ t, step s = .next t ∧
      t.driver = .init ∧ t.stopCause = .none ∧ t.frames = 0#64 ∧ t.framesLatchHi = 0#32 ∧
      t.capEn = false ∧ t.cap = 0#64 ∧ (∀ g, gridGet t.cnt g = 0 ∧ gridGet t.ovf g = false) ∧
      t.coefSel = .slope ∧ t.coefLoHold = 0#32 ∧
      (∀ p, sumAt t p = 0#64) ∧ (∀ b, rawhistAt t b = 0#64) ∧ (∀ b, calhistAt t b = 0#64) ∧ t.fill = 0 ∧
      t.cfgErr = false ∧ t.cmdErr = false ∧ t.sumOvf = false ∧ t.rhOvf = false ∧ t.chOvf = false ∧
      t.rdSel = 0#3 ∧ t.rdIdx = 0#14 ∧ t.rdBuf = 0#64 ∧
      (∀ g p, coefAt t g p = Config.coefUnspecified (s.resets + 1) (gridCode g) p) ∧
      (∀ j, fbufAt t j = Config.fbufUnspecified (s.resets + 1) j) ∧
      t.build = s.build ∧ t.busQueue = s.busQueue ∧ t.beats = s.beats ∧ t.sched = rest ∧ t.rdata = s.rdata

/-- The reset state holds the values of 10_state.md R52, and the default build of 00_scope.md R8 and R9. -/
def Obligations.ResetStateValues : Prop :=
  let s := State.reset
  s.driver = .init ∧ s.stopCause = .none ∧ s.frames = 0#64 ∧ s.framesLatchHi = 0#32 ∧
  s.capEn = false ∧ s.cap = 0#64 ∧ (∀ g, gridGet s.cnt g = 0 ∧ gridGet s.ovf g = false) ∧
  s.coefSel = .slope ∧ s.coefLoHold = 0#32 ∧
  (∀ p, sumAt s p = 0#64) ∧ (∀ b, rawhistAt s b = 0#64) ∧ (∀ b, calhistAt s b = 0#64) ∧ s.fill = 0 ∧
  s.cfgErr = false ∧ s.cmdErr = false ∧ s.sumOvf = false ∧ s.rhOvf = false ∧ s.chOvf = false ∧
  s.rdSel = 0#3 ∧ s.rdIdx = 0#14 ∧ s.rdBuf = 0#64 ∧
  (∀ g p, ∃ r, coefAt s g p = Config.coefUnspecified r (gridCode g) p) ∧
  s.build.sumW = 64 ∧ s.build.histW = 64 ∧ s.build.byteOrder = .le ∧ s.build.threshSub = false

/-! ## Bus writes -/

/-- A write to a read-only register is ignored and sets `cmd_err` (43_driver.md R199). -/
def Obligations.ReadOnlyWritesIgnored : Prop :=
  ∀ (s : State) (w : Word) (i : Instr),
    i ∈ [Instr.wrId w, .wrStatus w, .wrFramesLo w, .wrFramesHi w, .wrFill w, .wrCoefStat w, .wrRdLo w, .wrRdHi w] →
    exec i s = .next { s with cmdErr := true }

/-- WR CONFIG (43_driver.md R195): bit 0 is `cap_en` in INIT; outside INIT the write only sets `cmd_err`. -/
def Obligations.WriteConfig : Prop :=
  ∀ (s : State) (w : Word),
    (s.driver = .init → exec (.wrConfig w) s = .next { s with capEn := decide (w.toNat % 2 = 1) }) ∧
    (s.driver ≠ .init → exec (.wrConfig w) s = .next { s with cmdErr := true })

/-- WR CAP_LO and WR CAP_HI (43_driver.md R196, R197): each replaces its half of `cap` in INIT and keeps the other; outside
INIT the write only sets `cmd_err`. -/
def Obligations.WriteCapWords : Prop :=
  ∀ (s : State) (w : Word),
    (s.driver = .init → ∃ t, exec (.wrCapLo w) s = .next t ∧ t = { s with cap := t.cap } ∧
      t.cap.toNat = s.cap.toNat / 2 ^ 32 * 2 ^ 32 + w.toNat) ∧
    (s.driver = .init → ∃ t, exec (.wrCapHi w) s = .next t ∧ t = { s with cap := t.cap } ∧
      t.cap.toNat = w.toNat * 2 ^ 32 + s.cap.toNat % 2 ^ 32) ∧
    (s.driver ≠ .init → exec (.wrCapLo w) s = .next { s with cmdErr := true } ∧
      exec (.wrCapHi w) s = .next { s with cmdErr := true })

/-- WR RD_CTRL (43_driver.md R198), in every state: SEL and IDX are stored; an illegal selection latches 0 and sets
`cmd_err`; a legal one latches the element, or a drawn value for an accumulator while RUNNING; the counter
that numbers the draws is the model's (log 7). -/
def Obligations.WriteReadbackControl : Prop :=
  ∀ (s : State) (w : Word),
    let idx := w.toNat % 2 ^ 14
    let sel := w.toNat / 2 ^ 16 % 8
    let len := [6400, 8192, 1000, 6400, 6400, 6400].getD sel 0
    ∃ t, exec (.wrRdCtrl w) s = .next t ∧ t.rdIdx.toNat = idx ∧ t.rdSel.toNat = sel ∧
      t = { s with rdIdx := t.rdIdx, rdSel := t.rdSel, rdBuf := t.rdBuf, cmdErr := t.cmdErr, draws := t.draws } ∧
      (6 ≤ sel ∨ len ≤ idx → t.rdBuf = 0#64 ∧ t.cmdErr = true ∧ t.draws = s.draws) ∧
      (sel < 6 ∧ idx < len → t.cmdErr = s.cmdErr) ∧
      (sel ≤ 2 ∧ idx < len ∧ s.driver = .running → t.rdBuf = Config.draw64 s.draws ∧ t.draws = s.draws + 1) ∧
      (s.driver ≠ .running → idx < len →
        (sel = 0 → t.rdBuf = sumAt s idx ∧ t.draws = s.draws) ∧ (sel = 1 → t.rdBuf = rawhistAt s idx ∧ t.draws = s.draws) ∧
        (sel = 2 → t.rdBuf = calhistAt s idx ∧ t.draws = s.draws)) ∧
      (idx < len →
        (sel = 3 → t.rdBuf = coefAt s .slope idx ∧ t.draws = s.draws) ∧
        (sel = 4 → t.rdBuf = coefAt s .intercept idx ∧ t.draws = s.draws) ∧
        (sel = 5 → t.rdBuf = coefAt s .threshold idx ∧ t.draws = s.draws))

/-- WR COEF_SEL (41_calibration.md R133): in INIT a legal GRID is selected and its load restarts, its entries kept;
otherwise only `cmd_err` is set. -/
def Obligations.WriteCoefSel : Prop :=
  ∀ (s : State) (w : Word),
    (∀ g, s.driver = .init → w.toNat % 4 = gridCode g →
      ∃ t, exec (.wrCoefSel w) s = .next t ∧ t = { s with coefSel := g, cnt := t.cnt, ovf := t.ovf } ∧
        gridGet t.cnt g = 0 ∧ gridGet t.ovf g = false ∧
        ∀ g', g' ≠ g → gridGet t.cnt g' = gridGet s.cnt g' ∧ gridGet t.ovf g' = gridGet s.ovf g') ∧
    (s.driver ≠ .init ∨ w.toNat % 4 = 3 → exec (.wrCoefSel w) s = .next { s with cmdErr := true })

/-- WR COEF_LO (41_calibration.md R134): the low word is held in INIT; outside INIT the write only sets `cmd_err`. -/
def Obligations.WriteCoefLo : Prop :=
  ∀ (s : State) (w : Word),
    (s.driver = .init → exec (.wrCoefLo w) s = .next { s with coefLoHold := w }) ∧
    (s.driver ≠ .init → exec (.wrCoefLo w) s = .next { s with cmdErr := true })

/-- WR COEF_HI (41_calibration.md R135): in INIT the pattern `wdata : coef_lo_hold` goes to the spatial place of the next
raw position of the selected grid, every other entry is kept, and the position advances; a value past 6400 only sets
`ovf`; outside INIT the write only sets `cmd_err`. -/
def Obligations.WriteCoefHi : Prop :=
  ∀ (s : State) (w : Word),
    (s.driver = .init → gridGet s.cnt s.coefSel < 6400 →
      ∃ t, exec (.wrCoefHi w) s = .next t ∧ t = { s with coef := t.coef, cnt := t.cnt } ∧
        (coefAt t s.coefSel (P (gridGet s.cnt s.coefSel))).toNat = w.toNat * 2 ^ 32 + s.coefLoHold.toNat ∧
        (∀ g p, (g ≠ s.coefSel ∨ p ≠ P (gridGet s.cnt s.coefSel)) → coefAt t g p = coefAt s g p) ∧
        gridGet t.cnt s.coefSel = gridGet s.cnt s.coefSel + 1 ∧
        ∀ g, g ≠ s.coefSel → gridGet t.cnt g = gridGet s.cnt g) ∧
    (s.driver = .init → 6400 ≤ gridGet s.cnt s.coefSel →
      ∃ t, exec (.wrCoefHi w) s = .next t ∧ t = { s with ovf := t.ovf } ∧ gridGet t.ovf s.coefSel = true ∧
        ∀ g, g ≠ s.coefSel → gridGet t.ovf g = gridGet s.ovf g) ∧
    (s.driver ≠ .init → exec (.wrCoefHi w) s = .next { s with cmdErr := true })

/-! ## Commands -/

/-- WR CMD (43_driver.md R191): an illegal word sets `cmd_err` and has no other effect; a legal one completes as its
command does. -/
def Obligations.CommandWordDispatch : Prop :=
  ∀ (s : State) (w : Word),
    ((w.toNat / 16 ≠ 0 ∨ 2 < w.toNat % 16) → exec (.wrCmd w) s = .next { s with cmdErr := true } ∧
      exec (.cmdIllegal w) s = .next { s with cmdErr := true }) ∧
    (w.toNat / 16 = 0 ∧ w.toNat % 16 ≤ 2 → exec (.wrCmd w) s = exec (decodeCmd w) s ∧ ∃ t, exec (.wrCmd w) s = .next t) ∧
    decodeCmd 0#32 = .cmdNop ∧ decodeCmd 1#32 = .cmdInit ∧ decodeCmd 2#32 = .cmdStart

/-- CMD NOP has no effect in any state (43_driver.md R192). -/
def Obligations.CommandNopChangesNothing : Prop :=
  ∀ s : State, exec .cmdNop s = .next s

/-- CMD INIT (43_driver.md R193): refused in RUNNING; otherwise the accumulators, `frames`, `fill`, the stop cause and the
five flags are cleared, the state is INIT, and everything else is kept. -/
def Obligations.CommandInit : Prop :=
  ∀ s : State,
    (s.driver = .running → exec .cmdInit s = .next { s with cmdErr := true }) ∧
    (s.driver ≠ .running → ∃ t, exec .cmdInit s = .next t ∧
      t = { s with
        sum := t.sum, rawhist := t.rawhist, calhist := t.calhist, frames := 0#64, fill := 0, stopCause := .none,
        cfgErr := false, cmdErr := false, sumOvf := false, rhOvf := false, chOvf := false, driver := .init } ∧
      (∀ p, sumAt t p = 0#64) ∧ (∀ b, rawhistAt t b = 0#64) ∧ (∀ b, calhistAt t b = 0#64))

/-- CMD START (43_driver.md R194): refused outside INIT; ConfigError with an incomplete table, whatever the cap
(60_exceptions.md R246); STOPPED at once for a cap of 0; else RUNNING. -/
def Obligations.CommandStart : Prop :=
  ∀ s : State,
    (s.driver ≠ .init → exec .cmdStart s = .next { s with cmdErr := true }) ∧
    (s.driver = .init → (∃ g, gridGet s.cnt g ≠ 6400 ∨ gridGet s.ovf g = true) →
      exec .cmdStart s = .next { s with cfgErr := true }) ∧
    (s.driver = .init → (∀ g, gridGet s.cnt g = 6400 ∧ gridGet s.ovf g = false) →
      (s.capEn = true ∧ s.cap = 0#64 →
        exec .cmdStart s = .next { s with cfgErr := false, driver := .stopped, stopCause := .cap }) ∧
      (¬ (s.capEn = true ∧ s.cap = 0#64) → exec .cmdStart s = .next { s with cfgErr := false, driver := .running }))

/-! ## Bus reads -/

/-- RD ID and the reads of the write-only registers (43_driver.md R200, R201). -/
def Obligations.ReadConstants : Prop :=
  ∀ s : State,
    exec .rdId s = .next { s with rdata := 0x48585401#32 } ∧ exec .rdCmd s = .next { s with rdata := 0#32 } ∧
    exec .rdCoefLo s = .next { s with rdata := 0#32 } ∧ exec .rdCoefHi s = .next { s with rdata := 0#32 }

/-- RD STATUS (43_driver.md R202, 10_state.md R38): each field at its place, every other bit 0. -/
def Obligations.ReadStatusFields : Prop :=
  ∀ s : State, ∃ t, exec .rdStatus s = .next t ∧ t = { s with rdata := t.rdata } ∧
    t.rdata.toNat =
      (match s.driver with | .init => 0 | .running => 1 | .stopped => 2) +
      4 * (match s.stopCause with | .none => 0 | .eos => 1 | .cap => 2) +
      16 * s.cfgErr.toNat + 32 * s.cmdErr.toNat + 128 * s.sumOvf.toNat + 256 * s.rhOvf.toNat + 512 * s.chOvf.toNat +
      1024 * (coefReady s).toNat + 2048 * s.build.threshSub.toNat +
      4096 * (match s.build.byteOrder with | .le => 0 | .be => 1)

/-- `coef_ready` is that every grid has exactly 6400 values (41_calibration.md R136). -/
def Obligations.TableCompleteness : Prop :=
  ∀ s : State, coefReady s = true ↔ ∀ g, gridGet s.cnt g = 6400 ∧ gridGet s.ovf g = false

/-- RD CONFIG (43_driver.md R203), RD CAP_LO and RD CAP_HI (R204). -/
def Obligations.ReadConfigAndCap : Prop :=
  ∀ s : State,
    (∃ t, exec .rdConfig s = .next t ∧ t = { s with rdata := t.rdata } ∧ t.rdata.toNat = s.capEn.toNat) ∧
    (∃ t, exec .rdCapLo s = .next t ∧ t = { s with rdata := t.rdata } ∧ t.rdata.toNat = s.cap.toNat % 2 ^ 32) ∧
    (∃ t, exec .rdCapHi s = .next t ∧ t = { s with rdata := t.rdata } ∧ t.rdata.toNat = s.cap.toNat / 2 ^ 32)

/-- RD FRAMES_LO returns the low word of `frames` and latches the high word (43_driver.md R205). -/
def Obligations.ReadFramesLoLatches : Prop :=
  ∀ s : State, ∃ t, exec .rdFramesLo s = .next t ∧ t = { s with rdata := t.rdata, framesLatchHi := t.framesLatchHi } ∧
    t.rdata.toNat = s.frames.toNat % 2 ^ 32 ∧ t.framesLatchHi.toNat = s.frames.toNat / 2 ^ 32

/-- RD FRAMES_HI returns the latched half (43_driver.md R206), and no operation but RD FRAMES_LO changes the latch. Nor does
any step but the reset event, which sets it to 0 (10_state.md R52): so RD FRAMES_LO and then RD FRAMES_HI give a consistent
snapshot whatever accesses and beats come between them. -/
def Obligations.FramesSnapshot : Prop :=
  (∀ s : State, exec .rdFramesHi s = .next { s with rdata := s.framesLatchHi }) ∧
  (∀ (i : Instr) (s t : State), i ≠ .rdFramesLo → exec i s = .next t → t.framesLatchHi = s.framesLatchHi) ∧
  ∀ s t : State, step s = .next t → t.framesLatchHi = s.framesLatchHi ∨
    (∃ u, nextTurn s = .run .rdFramesLo u ∧ t.framesLatchHi.toNat = s.frames.toNat / 2 ^ 32) ∨
    (∃ rest, s.sched = .reset :: rest ∧ t.framesLatchHi = 0#32)

/-- RD FILL (43_driver.md R207), RD COEF_SEL (R208) and RD COEF_STAT (R209), for `fill` and `cnt` in the ranges of
10_state.md R31 and R27. -/
def Obligations.ReadFillAndLoadStatus : Prop :=
  ∀ s : State,
    (s.fill < 12800 → ∃ t, exec .rdFill s = .next t ∧ t = { s with rdata := t.rdata } ∧ t.rdata.toNat = s.fill) ∧
    (∃ t, exec .rdCoefSel s = .next t ∧ t = { s with rdata := t.rdata } ∧ t.rdata.toNat = gridCode s.coefSel) ∧
    (gridGet s.cnt s.coefSel ≤ 6400 → ∃ t, exec .rdCoefStat s = .next t ∧ t = { s with rdata := t.rdata } ∧
      t.rdata.toNat = gridGet s.cnt s.coefSel + 2 ^ 13 * (gridGet s.ovf s.coefSel).toNat)

/-- RD RD_CTRL (43_driver.md R210), RD RD_LO and RD RD_HI (R211). -/
def Obligations.ReadWindow : Prop :=
  ∀ s : State,
    (∃ t, exec .rdRdCtrl s = .next t ∧ t = { s with rdata := t.rdata } ∧
      t.rdata.toNat = s.rdSel.toNat * 2 ^ 16 + s.rdIdx.toNat) ∧
    (∃ t, exec .rdRdLo s = .next t ∧ t = { s with rdata := t.rdata } ∧ t.rdata.toNat = s.rdBuf.toNat % 2 ^ 32) ∧
    (∃ t, exec .rdRdHi s = .next t ∧ t = { s with rdata := t.rdata } ∧ t.rdata.toNat = s.rdBuf.toNat / 2 ^ 32)

/-- Every read but RD FRAMES_LO changes nothing but the data returned, and is idempotent (20_memory.md R66). -/
def Obligations.ReadsAreIdempotent : Prop :=
  ∀ (s : State) (r : Reg), r ≠ .framesLo →
    ∃ t, exec (readInstr r) s = .next t ∧ t = { s with rdata := t.rdata } ∧ exec (readInstr r) t = .next t

/-! ## Stream beats, accepted -/

/-- BEAT NULL has no effect (43_driver.md R213). -/
def Obligations.BeatNullChangesNothing : Prop :=
  ∀ s : State, s.driver = .running → exec .beatNull s = .next s

/-- BEAT BYTE (43_driver.md R214): the byte is stored at `fill`, every other byte of the frame buffer is kept; at 12799 the
step is the frame commit, else `fill` advances. -/
def Obligations.BeatByteStoresOrCommits : Prop :=
  ∀ (s : State) (d : Byte), s.driver = .running →
    ∃ u : State, u = { s with fbuf := u.fbuf } ∧ (∀ j, fbufAt u j = if j = s.fill then d else fbufAt s j) ∧
      (s.fill ≠ 12799 → exec (.beatByte d) s = .next { u with fill := s.fill + 1 }) ∧
      (s.fill = 12799 → ∃ t, exec (.beatByte d) s = .next t ∧ exec .frameCommit u = .next t)

/-- BEAT BYTE_LAST (43_driver.md R215): the byte, and then the end of the stream (R217) unless the cap stopped the block in
this step, in which case the cause is CAP (60_exceptions.md R246). -/
def Obligations.BeatByteLastEndsStream : Prop :=
  ∀ (s : State) (d : Byte), s.driver = .running →
    ∃ u, exec (.beatByte d) s = .next u ∧
      (u.driver = .running →
        exec (.beatByteLast d) s = .next { u with fill := 0, driver := .stopped, stopCause := .eos }) ∧
      (u.driver ≠ .running → exec (.beatByteLast d) s = .next u ∧ u.stopCause = .cap)

/-- BEAT EOS runs END_OF_STREAM: the partial record is discarded and nothing else changes (43_driver.md R216, R217). -/
def Obligations.BeatEosEndsStream : Prop :=
  ∀ s : State, s.driver = .running →
    exec .beatEos s = .next { s with fill := 0, driver := .stopped, stopCause := .eos }

/-! ## The frame operations -/

/-- `P` is a bijection on the 6400 indices, `Q` is its inverse, and `P` keeps each row (40_reorderer.md R113). -/
def Obligations.PermutationBijective : Prop :=
  (∀ k, k < 6400 → P k < 6400 ∧ Q (P k) = k ∧ P k / 80 = k / 80) ∧
  (∀ p, p < 6400 → Q p < 6400 ∧ P (Q p) = p) ∧
  (∀ k, k < 6400 → (P k = k ↔ k % 80 = 0 ∨ k % 80 = 79))

/-- Both realizations give `P`, and so do the three cascaded counters, which also come back to their start after one frame
(40_reorderer.md R115). -/
def Obligations.AddressGeneratorRealizations : Prop :=
  (∀ impl k, k < 6400 → spatialIndex impl k = P k) ∧ (∀ k, k < 6400 → counterAddress (countersAt k) = P k) ∧
  countersAt 6400 = countersAt 0

/-- Sample decode (20_memory.md R62): two bytes, the first the low one in LE and the high one in BE. -/
def Obligations.SampleByteOrder : Prop :=
  ∀ (s : State) (k : Nat),
    (s.build.byteOrder = .le → (sample s k).toNat = (fbufAt s (2 * k)).toNat + 256 * (fbufAt s (2 * k + 1)).toNat) ∧
    (s.build.byteOrder = .be → (sample s k).toNat = 256 * (fbufAt s (2 * k)).toNat + (fbufAt s (2 * k + 1)).toNat)

/-- REORDER (40_reorderer.md R114) puts sample `k` at spatial index `P(k)`, and changes nothing of the block. That its
result is held on the wires is the model's choice (log 5). -/
def Obligations.ReorderPlacesSamples : Prop :=
  ∀ s : State, ∃ t, exec .reorder s = .next t ∧
    t = { s with wires := { spatial := t.wires.spatial, calibrated := s.wires.calibrated } } ∧
    ∀ k, k < 6400 → spatialAt t (P k) = sample s k

/-- CALIB (41_calibration.md R138, R139) of one pixel: `x·slope + intercept` in binary64, each operation rounded once,
multiply first; with `THRESH_SUB` the threshold is subtracted first. Only that pixel's value changes. A pixel that does not
exist is the model's one fault (log 15). -/
def Obligations.CalibFormula : Prop :=
  ∀ (s : State) (x : Sample) (p : BitVec 13),
    (p.toNat < 6400 → Cells.Rising 6400 s.wires.calibrated →
      ∃ t, exec (.calib x p) s = .next t ∧
        t = { s with wires := { spatial := s.wires.spatial, calibrated := t.wires.calibrated } } ∧
        (s.build.threshSub = false → calibratedAt t p.toNat =
          fadd64 (fmul64 (f64OfNat x.toNat) (fromBits64 (coefAt s .slope p.toNat)))
            (fromBits64 (coefAt s .intercept p.toNat))) ∧
        (s.build.threshSub = true → calibratedAt t p.toNat =
          fadd64 (fmul64 (fsub64 (f64OfNat x.toNat) (fromBits64 (coefAt s .threshold p.toNat)))
            (fromBits64 (coefAt s .slope p.toNat))) (fromBits64 (coefAt s .intercept p.toNat))) ∧
        ∀ q, q ≠ p.toNat → calibratedAt t q = calibratedAt s q) ∧
    (6400 ≤ p.toNat → exec (.calib x p) s = .fault .noSuchPixel)

/-- Corner cases of CALIB with `THRESH_SUB = false` (41_calibration.md R138): a NaN coefficient gives NaN, `x = 0` with an
infinite slope gives NaN, `x = 0` with finite coefficients gives the intercept when it is not a zero; and every NaN is
dropped by the domain test (R140). -/
def Obligations.CalibCornerCases : Prop :=
  ∀ (s : State) (x : Sample) (p : Nat), s.build.threshSub = false →
    (fromBits64 (coefAt s .slope p) = .nan ∨ fromBits64 (coefAt s .intercept p) = .nan → calibValue s x p = .nan) ∧
    (∀ neg, fromBits64 (coefAt s .slope p) = .inf neg → calibValue s 0#16 p = .nan) ∧
    (∀ n1 m1 q1 n2 m2 q2, fromBits64 (coefAt s .slope p) = .fin n1 m1 q1 →
      fromBits64 (coefAt s .intercept p) = .fin n2 m2 q2 → m2 ≠ 0 → calibValue s 0#16 p = .fin n2 m2 q2) ∧
    calBin .nan = none

/-- APPLY_CALIBRATION (42_accumulator.md R163): the value at each pixel is CALIB of its spatial sample with the coefficients
of the same pixel (40_reorderer.md R116). That the values are held on the wires is the model's choice (log 5). -/
def Obligations.ApplyCalibrationPerPixel : Prop :=
  ∀ s : State, ∃ t, exec .applyCalibration s = .next t ∧
    t = { s with wires := { spatial := s.wires.spatial, calibrated := t.wires.calibrated } } ∧
    ∀ p, p < 6400 → calibratedAt t p = calibValue s (spatialAt s p) p

/-- INGEST_SPATIAL (42_accumulator.md R161): the spatial frame is added elementwise into `sum`, modulo `2^SUM_W`; `sum_ovf`
is sticky and set when a cell wraps. That the frame is taken from the wires is the model's choice (log 5, log 6). -/
def Obligations.IngestSpatialAdds : Prop :=
  ∀ s : State, s.build.ok = true → Memory.wf s →
    ∃ t, exec .ingestSpatial s = .next t ∧ t = { s with sum := t.sum, sumOvf := t.sumOvf } ∧
      (∀ p, p < 6400 → (sumAt t p).toNat = ((sumAt s p).toNat + (spatialAt s p).toNat) % 2 ^ s.build.sumW) ∧
      (t.sumOvf = true ↔ s.sumOvf = true ∨
        ∃ p, p < 6400 ∧ 2 ^ s.build.sumW ≤ (sumAt s p).toNat + (spatialAt s p).toNat)

/-- INGEST_RAW_HIST (42_accumulator.md R162): each bin counts the samples with `floor(x / 8)` equal to it, none dropped,
modulo `2^HIST_W`; `rh_ovf` is sticky and set when a bin wraps. Cells have HIST_W bits (10_state.md R29). -/
def Obligations.IngestRawHistCounts : Prop :=
  ∀ s : State, s.build.ok = true → Memory.wf s → (∀ b, (rawhistAt s b).toNat < 2 ^ s.build.histW) →
    let count := fun b => (List.range 6400).countP fun k => (sample s k).toNat / 8 = b
    ∃ t, exec .ingestRawHist s = .next t ∧ t = { s with rawhist := t.rawhist, rhOvf := t.rhOvf } ∧
      (∀ b, (rawhistAt t b).toNat = ((rawhistAt s b).toNat + count b) % 2 ^ s.build.histW) ∧
      (t.rhOvf = true ↔ s.rhOvf = true ∨ ∃ b, 2 ^ s.build.histW ≤ (rawhistAt s b).toNat + count b)

/-- INGEST_CAL_HIST (42_accumulator.md R164): each bin counts the values whose bin it is; a value that fails the domain test
or the bin range is counted nowhere (R167); modulo `2^HIST_W`, with `ch_ovf` sticky. That the values are taken from the
wires is the model's choice (log 5, log 6). -/
def Obligations.IngestCalHistCounts : Prop :=
  ∀ s : State, s.build.ok = true → Memory.wf s → (∀ b, (calhistAt s b).toNat < 2 ^ s.build.histW) →
    let count := fun b => (List.range 6400).countP fun k => calBin (calibratedAt s (P k)) = some b
    ∃ t, exec .ingestCalHist s = .next t ∧ t = { s with calhist := t.calhist, chOvf := t.chOvf } ∧
      (∀ b, (calhistAt t b).toNat = ((calhistAt s b).toNat + count b) % 2 ^ s.build.histW) ∧
      (t.chOvf = true ↔ s.chOvf = true ∨ ∃ b, 2 ^ s.build.histW ≤ (calhistAt s b).toNat + count b)

/-- The bin of a calibrated value (42_accumulator.md R164): `floor(fmul64(v, 10))` when `0 < v < 10000` and it is at most
999, else the value is dropped; and the counted values are exactly those with
`0 < v ≤ 0x4058FFFFFFFFFFFF` (99.99999999999999). -/
def Obligations.CalibratedCountedRange : Prop :=
  ∀ v : F64, v.canonical = true →
    (∀ b, calBin v = some b ↔ flt64 (f64OfNat 0) v = true ∧ flt64 v (f64OfNat 10000) = true ∧
      floorInt (fmul64 v (f64OfNat 10)) = some b ∧ b ≤ 999) ∧
    ((∃ b, calBin v = some b) ↔
      flt64 (f64OfNat 0) v = true ∧ v ≠ .nan ∧ flt64 (fromBits64 0x4058FFFFFFFFFFFF#64) v = false)

/-- The rounding `roundUnits` (00_scope.md R11): a finite result is a canonical binary64 value at least as near the exact value as every
other finite one, of the exact value's sign, with an even significand on a tie; the result is an infinity exactly when the
exact value reaches the midpoint above the largest finite one. Values are in units of `2^-1074`, scaled by `2^sh`. The binary64
format is PRESUMED by the model (log 11). -/
def Obligations.RoundingNearestEven : Prop :=
  ∀ (neg : Bool) (n sh : Nat),
    (∀ neg' m q, roundUnits neg n sh = .fin neg' m q →
      neg' = neg ∧ (F64.fin neg' m q).canonical = true ∧
      ∀ m' q', (F64.fin neg m' q').canonical = true →
        |(n : Int) - m * 2 ^ q * 2 ^ sh| ≤ |(n : Int) - m' * 2 ^ q' * 2 ^ sh| ∧
        (|(n : Int) - m * 2 ^ q * 2 ^ sh| = |(n : Int) - m' * 2 ^ q' * 2 ^ sh| → m * 2 ^ q ≠ m' * 2 ^ q' → m % 2 = 0)) ∧
    (roundUnits neg n sh = .inf neg ↔ (2 ^ 54 - 1) * 2 ^ 2045 * 2 ^ sh ≤ 2 * n) ∧
    roundUnits neg n sh ≠ .inf (!neg) ∧ roundUnits neg n sh ≠ .nan

/-- FRAME_COMMIT (42_accumulator.md R165): in one step every pixel's sample is added to `sum` (R161), counted in the raw
histogram (R162), calibrated (R163) and counted in the calibrated histogram (R164); then `frames` counts the frame, `fill`
is 0 and the cap is tested. The calibrated frame does not outlive it (10_state.md R34): the wires
that hold it are the model's, and end empty (log 5). -/
def Obligations.FrameCommitEffect : Prop :=
  ∀ s : State, s.build.ok = true → Memory.wf s → (∀ b, (rawhistAt s b).toNat < 2 ^ s.build.histW) →
    (∀ b, (calhistAt s b).toNat < 2 ^ s.build.histW) →
    let raw := fun b => (List.range 6400).countP fun k => (sample s k).toNat / 8 = b
    let cal := fun b => (List.range 6400).countP fun k => calBin (calibValue s (sample s k) (P k)) = some b
    ∃ t, exec .frameCommit s = .next t ∧
      t = { s with
        sum := t.sum, sumOvf := t.sumOvf, rawhist := t.rawhist, rhOvf := t.rhOvf, calhist := t.calhist,
        chOvf := t.chOvf, frames := s.frames + 1#64, fill := 0, driver := t.driver, stopCause := t.stopCause,
        wires := Wires.empty } ∧
      (∀ k, k < 6400 → (sumAt t (P k)).toNat = ((sumAt s (P k)).toNat + (sample s k).toNat) % 2 ^ s.build.sumW) ∧
      (∀ b, (rawhistAt t b).toNat = ((rawhistAt s b).toNat + raw b) % 2 ^ s.build.histW) ∧
      (∀ b, (calhistAt t b).toNat = ((calhistAt s b).toNat + cal b) % 2 ^ s.build.histW) ∧
      (t.sumOvf = true ↔ s.sumOvf = true ∨
        ∃ k, k < 6400 ∧ 2 ^ s.build.sumW ≤ (sumAt s (P k)).toNat + (sample s k).toNat) ∧
      (t.rhOvf = true ↔ s.rhOvf = true ∨ ∃ b, 2 ^ s.build.histW ≤ (rawhistAt s b).toNat + raw b) ∧
      (t.chOvf = true ↔ s.chOvf = true ∨ ∃ b, 2 ^ s.build.histW ≤ (calhistAt s b).toNat + cal b) ∧
      (s.capEn = true ∧ s.frames + 1#64 = s.cap → t.driver = .stopped ∧ t.stopCause = .cap) ∧
      (¬ (s.capEn = true ∧ s.frames + 1#64 = s.cap) → t.driver = s.driver ∧ t.stopCause = s.stopCause)

/-- Conservation (42_accumulator.md R168). For one commit: the raw histogram gains exactly 6400 counts while `rh_ovf`
stays 0, the calibrated one at most 6400 (a wrap only loses counts), and the sum image the exact sum of the frame's
samples while `sum_ovf` stays 0. For every step: after
`N` commits since the last clear, whose samples add up to `S`, the totals are those of `Conserved N S`; a step keeps that,
or clears (reset, or CMD INIT), or commits the record whose last byte it accepts, and then `N` and `S` count its frame. -/
def Obligations.CommitConservation : Prop :=
  (∀ s : State, s.build.ok = true → Memory.wf s →
    ∃ t, exec .frameCommit s = .next t ∧
      (t.rhOvf = false → ∑ b ∈ Finset.range 8192, (rawhistAt t b).toNat =
        ∑ b ∈ Finset.range 8192, (rawhistAt s b).toNat + 6400) ∧
      ∑ b ∈ Finset.range 1000, (calhistAt t b).toNat ≤ ∑ b ∈ Finset.range 1000, (calhistAt s b).toNat + 6400 ∧
      (t.sumOvf = false → ∑ p ∈ Finset.range 6400, (sumAt t p).toNat =
        ∑ p ∈ Finset.range 6400, (sumAt s p).toNat + ∑ k ∈ Finset.range 6400, (sample s k).toNat)) ∧
  ∀ (s t : State) (N S : Nat), Inv s → Conserved N S s → step s = .next t →
    (Conserved N S t ∧ t.frames = s.frames) ∨
    (Conserved 0 0 t ∧ ((∃ rest, s.sched = .reset :: rest) ∨ ∃ u, nextTurn s = .run (.wrCmd 1#32) u ∧ s.driver ≠ .running)) ∨
    ∃ u d, (nextTurn s = .run (.beatByte d) u ∨ nextTurn s = .run (.beatByteLast d) u) ∧ s.driver = .running ∧
      s.fill = 12799 ∧ t.frames = s.frames + 1#64 ∧
      Conserved (N + 1)
        (S + ∑ k ∈ Finset.range 6400, (sample { s with fbuf := Cells.insert s.fbuf 12799 d } k).toNat) t

/-- Within a commit the order in which increments are applied does not matter, for the cells and for the sticky overflow
record (42_accumulator.md R166). -/
def Obligations.ScatterAddOrderIndependent : Prop :=
  ∀ (w n : Nat) (u v : List (Nat × Nat)) (c : CellList DWord) (o : Bool),
    w ≤ 64 → Cells.Canonical 0#64 n c → (∀ e ∈ u, e.1 < n) → u.Perm v → scatterAdd w u (c, o) = scatterAdd w v (c, o)

/-- Across commits the order of two frames does not matter: the accumulators, their overflow flags and `frames` end the same
(42_accumulator.md R166, 20_memory.md R71). `f` and `g` are the two records in the frame buffer. -/
def Obligations.CommitOrderIndependent : Prop :=
  ∀ (s : State) (f g : CellList Byte), s.build.ok = true → Memory.wf s →
    ∃ t₁ t₁₂ t₂ t₂₁,
      exec .frameCommit { s with fbuf := f } = .next t₁ ∧ exec .frameCommit { t₁ with fbuf := g } = .next t₁₂ ∧
      exec .frameCommit { s with fbuf := g } = .next t₂ ∧ exec .frameCommit { t₂ with fbuf := f } = .next t₂₁ ∧
      t₁₂.sum = t₂₁.sum ∧ t₁₂.rawhist = t₂₁.rawhist ∧ t₁₂.calhist = t₂₁.calhist ∧
      t₁₂.sumOvf = t₂₁.sumOvf ∧ t₁₂.rhOvf = t₂₁.rhOvf ∧ t₁₂.chOvf = t₂₁.chOvf ∧ t₁₂.frames = t₂₁.frames

/-! ## Rules of the whole machine -/

/-- Outside INIT no operation changes the calibration table, its bookkeeping, `cap_en` or `cap` (20_memory.md R74,
41_calibration.md R137). -/
def Obligations.TableAndCapFixedOutsideInit : Prop :=
  ∀ (i : Instr) (s t : State), s.driver ≠ .init → exec i s = .next t →
    t.coef = s.coef ∧ t.cnt = s.cnt ∧ t.ovf = s.ovf ∧ t.coefSel = s.coefSel ∧ t.coefLoHold = s.coefLoHold ∧
    t.capEn = s.capEn ∧ t.cap = s.cap

/-- The transitions of 43_driver.md R190 are all of them: a step changes the driver state only by reset, CMD INIT in
STOPPED, CMD START in INIT with a complete table, a commit that reaches the cap, or the end of the stream. -/
def Obligations.DriverTransitions : Prop :=
  ∀ s t : State, step s = .next t → t.driver ≠ s.driver →
    (∃ rest, s.sched = .reset :: rest ∧ t.driver = .init) ∨
    (∃ u, nextTurn s = .run (.wrCmd 1#32) u ∧ s.driver = .stopped ∧ t.driver = .init ∧ t.stopCause = .none) ∨
    (∃ u, nextTurn s = .run (.wrCmd 2#32) u ∧ s.driver = .init ∧ coefReady s = true ∧
      ((t.driver = .running ∧ ¬ (s.capEn = true ∧ s.cap = 0#64)) ∨
        (t.driver = .stopped ∧ t.stopCause = .cap ∧ s.capEn = true ∧ s.cap = 0#64))) ∨
    (∃ u d, (nextTurn s = .run (.beatByte d) u ∨ nextTurn s = .run (.beatByteLast d) u) ∧ s.driver = .running ∧
      s.fill = 12799 ∧ t.driver = .stopped ∧ t.stopCause = .cap ∧ s.capEn = true ∧ t.frames = s.cap) ∨
    (∃ u, (nextTurn s = .run .beatEos u ∨ ∃ d, nextTurn s = .run (.beatByteLast d) u) ∧ s.driver = .running ∧
      t.driver = .stopped ∧ t.stopCause = .eos)

/-- Each of the five sticky flags is changed only by the operations 10_state.md R53 names (a command reaching the block as a
word written to CMD included). A set flag stays set until CMD INIT clears it (R32); for `cfg_err` also a START accepted in
INIT with a complete table. `cfg_err` is set only by a START in INIT with an incomplete table (43_driver.md R194), and
`cmd_err` only by a cause of 60_exceptions.md R244. The reset event is no operation (`ResetEventSetsEveryElement`). -/
def Obligations.FlagsChangedOnlyByTheirRules : Prop :=
  ∀ (i : Instr) (s t : State), exec i s = .next t →
    (t.cfgErr = true → s.cfgErr = true ∨ ((i = .cmdStart ∨ i = .wrCmd 2#32) ∧ s.driver = .init ∧ coefReady s = false)) ∧
    (s.cfgErr = true → t.cfgErr = true ∨ clearsFlags i s ∨
      ((i = .cmdStart ∨ i = .wrCmd 2#32) ∧ s.driver = .init ∧ coefReady s = true)) ∧
    (t.cmdErr = true → s.cmdErr = true ∨ cmdErrorCause i s) ∧
    (t.sumOvf ≠ s.sumOvf → i = .ingestSpatial ∨ i = .frameCommit ∨ (∃ d, i = .beatByte d ∨ i = .beatByteLast d) ∨
      clearsFlags i s) ∧
    (t.rhOvf ≠ s.rhOvf → i = .ingestRawHist ∨ i = .frameCommit ∨ (∃ d, i = .beatByte d ∨ i = .beatByteLast d) ∨
      clearsFlags i s) ∧
    (t.chOvf ≠ s.chOvf → i = .ingestCalHist ∨ i = .frameCommit ∨ (∃ d, i = .beatByte d ∨ i = .beatByteLast d) ∨
      clearsFlags i s) ∧
    (¬ clearsFlags i s → (s.cmdErr = true → t.cmdErr = true) ∧ (s.sumOvf = true → t.sumOvf = true) ∧
      (s.rhOvf = true → t.rhOvf = true) ∧ (s.chOvf = true → t.chOvf = true))

/-- The causes of CMD_ERR are the list of 60_exceptions.md R244, complete: `cmd_err` is set after an operation exactly when
the operation is one of them, or it was set and the operation does not clear it; and such an access is ignored, except that
RD_CTRL stores SEL and IDX and sets `rd_buf` to 0. -/
def Obligations.CommandErrorCauses : Prop :=
  ∀ (i : Instr) (s t : State), exec i s = .next t →
    (t.cmdErr = true ↔ cmdErrorCause i s ∨ (s.cmdErr = true ∧ ¬ clearsFlags i s)) ∧
    (cmdErrorCause i s → (∀ w, i ≠ .wrRdCtrl w) → t = { s with cmdErr := true }) ∧
    (∀ w, i = .wrRdCtrl w → cmdErrorCause i s →
      t = { s with cmdErr := true, rdSel := t.rdSel, rdIdx := t.rdIdx, rdBuf := 0#64 } ∧
      t.rdIdx.toNat = w.toNat % 2 ^ 14 ∧ t.rdSel.toNat = w.toNat / 2 ^ 16 % 8)

/-- No error stops the block: every step completes, whatever the state (60_exceptions.md R240). -/
def Obligations.StepNeverStops : Prop :=
  ∀ s : State, Completes s

/-- The consistency of `Inv` holds right after reset, and so does conservation, with no commit yet (42_accumulator.md
R168). -/
def Obligations.InvariantAtReset : Prop := Inv State.reset ∧ Conserved 0 0 State.reset

/-- Every step keeps the consistency of `Inv`: among others, the arrays stay canonical and in range, every byte of the
record being received is in the buffer, the table is complete outside INIT, and a running frame count stays below its
cap. -/
def Obligations.InvariantKept : Prop :=
  ∀ s t : State, Inv s → step s = .next t → Inv t

/-- Only `fbuf[0..fill-1]` is meaningful (10_state.md R31, 93_implementation_defined.md U3): two states that differ only in
the frame buffer at or above `fill` step to two states that differ only there. -/
def Obligations.FrameBufferPastFillUnobservable : Prop :=
  ∀ (s : State) (f : CellList Byte), s.fill < 12800 → (∀ j, j < s.fill → Cells.find f j = Cells.find s.fbuf j) →
    ∃ t u, step s = .next t ∧ step { s with fbuf := f } = .next u ∧ u = { t with fbuf := u.fbuf } ∧
      ∀ j, j < t.fill → Cells.find u.fbuf j = Cells.find t.fbuf j

/-! ## The binary64 operations -/

/-- The binary64 operations (00_scope.md R11, 41_calibration.md R138) over all values: `fmul64`, `fadd64` and `fsub64` of
finite values are the exact product, sum and difference rounded once; `f64OfNat` is exact for every `u16`, as for every
number below 2^53; the sign of an infinite product is that of the factors, infinity times zero and the sum of opposite
infinities are NaN, and a NaN operand gives NaN; `flt64` is the order of the numbers, with the infinities at its ends,
and false with a NaN on either side; `floorInt` of a finite value that is not negative is the largest integer at or below
it; `fromBits64` gives a canonical value, which stands for the number its
fields say, and the infinities where the format has them. The format and the results with infinities are PRESUMED by the
model (log 11). -/
def Obligations.Binary64Operations : Prop :=
  (∀ n₁ m₁ q₁ n₂ m₂ q₂,
    let a := F64.fin n₁ m₁ q₁
    let b := F64.fin n₂ m₂ q₂
    IsRounded (a.value * b.value) (fmul64 a b) ∧ IsRounded (a.value + b.value) (fadd64 a b) ∧
    IsRounded (a.value - b.value) (fsub64 a b)) ∧
  (∀ x, x < 2 ^ 53 → ∃ m q, f64OfNat x = .fin false m q ∧ (f64OfNat x).canonical = true ∧ (f64OfNat x).value = x) ∧
  (∀ n₁ n₂ m q,
    fmul64 (.inf n₁) (.inf n₂) = .inf (n₁ != n₂) ∧
    (m ≠ 0 → fmul64 (.inf n₁) (.fin n₂ m q) = .inf (n₁ != n₂) ∧ fmul64 (.fin n₁ m q) (.inf n₂) = .inf (n₁ != n₂)) ∧
    fmul64 (.inf n₁) (.fin n₂ 0 q) = .nan ∧ fmul64 (.fin n₁ 0 q) (.inf n₂) = .nan ∧
    fadd64 (.inf n₁) (.fin n₂ m q) = .inf n₁ ∧ fadd64 (.fin n₁ m q) (.inf n₂) = .inf n₂ ∧
    fadd64 (.inf n₁) (.inf n₁) = .inf n₁ ∧ fadd64 (.inf n₁) (.inf (!n₁)) = .nan ∧
    fsub64 (.inf n₁) (.fin n₂ m q) = .inf n₁ ∧ fsub64 (.fin n₁ m q) (.inf n₂) = .inf (!n₂) ∧
    fsub64 (.inf n₁) (.inf n₁) = .nan ∧ fsub64 (.inf n₁) (.inf (!n₁)) = .inf n₁) ∧
  (∀ a, fmul64 a .nan = .nan ∧ fmul64 .nan a = .nan ∧ fadd64 a .nan = .nan ∧ fadd64 .nan a = .nan ∧
    fsub64 a .nan = .nan ∧ fsub64 .nan a = .nan) ∧
  (∀ n₁ m₁ q₁ n₂ m₂ q₂,
    flt64 (.fin n₁ m₁ q₁) (.fin n₂ m₂ q₂) = true ↔ (F64.fin n₁ m₁ q₁).value < (F64.fin n₂ m₂ q₂).value) ∧
  (∀ n m q,
    flt64 (.inf true) (.fin n m q) = true ∧ flt64 (.fin n m q) (.inf false) = true ∧
    flt64 (.inf true) (.inf false) = true ∧ flt64 (.inf false) (.fin n m q) = false ∧
    flt64 (.fin n m q) (.inf true) = false ∧ flt64 (.inf n) (.inf n) = false ∧ flt64 (.inf false) (.inf true) = false) ∧
  (∀ a, flt64 .nan a = false ∧ flt64 a .nan = false) ∧
  (∀ n m q, 0 ≤ (F64.fin n m q).value →
    ∃ b : Nat, floorInt (.fin n m q) = some b ∧ (b : ℚ) ≤ (F64.fin n m q).value ∧ (F64.fin n m q).value < b + 1) ∧
  ∀ w : DWord,
    let neg := decide (2 ^ 63 ≤ w.toNat)
    let e := w.toNat / 2 ^ 52 % 2 ^ 11
    let f := w.toNat % 2 ^ 52
    (fromBits64 w).canonical = true ∧
    (e = 2047 → fromBits64 w = if f = 0 then .inf neg else .nan) ∧
    (e = 0 → ∃ m q, fromBits64 w = .fin neg m q ∧ m * 2 ^ q = f) ∧
    (0 < e → e < 2047 → ∃ m q, fromBits64 w = .fin neg m q ∧ m * 2 ^ q = (2 ^ 52 + f) * 2 ^ (e - 1))
end

