-- ==== Sys2Proof/Laws/Cells.lean ====
section
/-! SUPPORT. Reading after writing in an array held as a list, and the canonical form every write keeps. -/

namespace Sys2Proof.Machine.Cells

variable {α : Type}

@[simp] theorem find_nil (i : Nat) : find ([] : CellList α) i = none := rfl

@[simp] theorem get_nil (d : α) (i : Nat) : get d [] i = d := rfl

theorem find_cons (k : Nat) (v : α) (c : CellList α) (i : Nat) :
    find ((k, v) :: c) i = if i = k then some v else find c i := rfl

/-- Reading after listing a value at an index, in any list. -/
theorem find_insert (c : CellList α) (i : Nat) (v : α) (j : Nat) :
    find (insert c i v) j = if j = i then some v else find c j := by
  induction c with
  | nil => simp [insert, find]
  | cons e rest ih =>
    obtain ⟨k, w⟩ := e
    simp only [insert]
    split
    · simp [find]
    · split
      · subst_vars; simp only [find]; split <;> simp_all
      · simp only [find, ih]
        by_cases hjk : j = k
        · subst hjk; simp [Ne.symm (Ne.intro ‹¬i = j›)]
        · simp [hjk]

theorem mem_insert {c : CellList α} {i : Nat} {v : α} {e : Nat × α} (h : e ∈ insert c i v) :
    e = (i, v) ∨ e ∈ c := by
  induction c with
  | nil => simpa [insert] using h
  | cons e' rest ih =>
    obtain ⟨k, w⟩ := e'
    simp only [insert] at h
    split at h
    · simpa using h
    · split at h
      · simp only [List.mem_cons] at h ⊢; tauto
      · simp only [List.mem_cons] at h ⊢
        rcases h with h | h
        · tauto
        · have := ih h; tauto

theorem mem_erase {c : CellList α} {i : Nat} {e : Nat × α} (h : e ∈ erase c i) : e ∈ c := by
  induction c with
  | nil => simp [erase] at h
  | cons e' rest ih =>
    obtain ⟨k, w⟩ := e'
    simp only [erase] at h
    split at h
    · exact List.mem_cons_of_mem _ h
    · simp only [List.mem_cons] at h ⊢
      exact h.imp id ih

theorem rising_cons {n k : Nat} {v : α} {c : CellList α} :
    Rising n ((k, v) :: c) ↔ k < n ∧ (∀ e ∈ c, k < e.1) ∧ Rising n c := by
  simp only [Rising, List.map_cons, List.pairwise_cons, List.mem_map, List.mem_cons, forall_exists_index, and_imp,
    forall_apply_eq_imp_iff₂, forall_eq_or_imp]
  tauto

@[simp] theorem rising_nil (n : Nat) : Rising n ([] : CellList α) := ⟨List.Pairwise.nil, by simp⟩

theorem rising_insert {n : Nat} {c : CellList α} {i : Nat} (v : α) (h : Rising n c) (hi : i < n) :
    Rising n (insert c i v) := by
  induction c with
  | nil => simpa [insert, Rising] using hi
  | cons e rest ih =>
    obtain ⟨k, w⟩ := e
    obtain ⟨hk, hlt, hr⟩ := rising_cons.mp h
    simp only [insert]
    split
    · refine rising_cons.mpr ⟨hi, fun e he => ?_, h⟩
      rcases List.mem_cons.mp he with rfl | he
      · assumption
      · have := hlt e he; omega
    · split
      · subst_vars; exact rising_cons.mpr ⟨hi, hlt, hr⟩
      · refine rising_cons.mpr ⟨hk, fun e he => ?_, ih hr⟩
        rcases mem_insert he with rfl | he
        · simp only; omega
        · exact hlt e he

theorem rising_erase {n : Nat} {c : CellList α} (i : Nat) (h : Rising n c) : Rising n (erase c i) := by
  induction c with
  | nil => exact rising_nil n
  | cons e rest ih =>
    obtain ⟨k, w⟩ := e
    obtain ⟨hk, hlt, hr⟩ := rising_cons.mp h
    simp only [erase]
    split
    · exact hr
    · exact rising_cons.mpr ⟨hk, fun e he => hlt e (mem_erase he), ih hr⟩

/-- An index below every listed one is not listed. -/
theorem find_eq_none {c : CellList α} {i : Nat} (h : ∀ e ∈ c, i < e.1) : find c i = none := by
  induction c with
  | nil => rfl
  | cons e rest ih =>
    obtain ⟨k, w⟩ := e
    have hk : i < k := h (k, w) (by simp)
    rw [find_cons, if_neg (by omega)]
    exact ih fun e he => h e (by simp [he])

/-- Reading after listing no value at an index, in a rising list. -/
theorem find_erase {n : Nat} {c : CellList α} (h : Rising n c) (i j : Nat) :
    find (erase c i) j = if j = i then none else find c j := by
  induction c with
  | nil => simp [erase]
  | cons e rest ih =>
    obtain ⟨k, w⟩ := e
    obtain ⟨-, hlt, hr⟩ := rising_cons.mp h
    simp only [erase]
    split
    · subst_vars
      split
      · subst_vars; exact find_eq_none hlt
      · simp [find_cons, *]
    · simp only [find_cons, ih hr]
      by_cases hjk : j = k
      · subst hjk; simp [Ne.symm (Ne.intro ‹¬i = j›)]
      · simp [hjk]

variable [DecidableEq α]

@[simp] theorem canonical_nil (d : α) (n : Nat) : Canonical d n [] := ⟨rising_nil n, by simp⟩

/-- A write keeps the canonical form. -/
theorem canonical_put {d : α} {n : Nat} {c : CellList α} {i : Nat} (v : α) (h : Canonical d n c) (hi : i < n) :
    Canonical d n (put d c i v) := by
  unfold put
  split
  · exact ⟨rising_erase i h.1, fun e he => h.2 e (mem_erase he)⟩
  · refine ⟨rising_insert v h.1 hi, fun e he => ?_⟩
    rcases mem_insert he with rfl | he
    · assumption
    · exact h.2 e he

/-- Reading after a write, in a rising array: the value written there, the old value elsewhere. -/
theorem get_put {d : α} {n : Nat} {c : CellList α} (h : Rising n c) (i : Nat) (v : α) (j : Nat) :
    get d (put d c i v) j = if j = i then v else get d c j := by
  unfold put get
  split
  · rw [find_erase h]; split <;> simp_all
  · rw [find_insert]; split <;> simp

theorem rising_put {d : α} {n : Nat} {c : CellList α} {i : Nat} (v : α) (h : Rising n c) (hi : i < n) :
    Rising n (put d c i v) := by
  unfold put
  split
  · exact rising_erase i h
  · exact rising_insert v h hi

omit [DecidableEq α] in
theorem mem_of_find {c : CellList α} {i : Nat} {v : α} (h : find c i = some v) : (i, v) ∈ c := by
  induction c with
  | nil => simp at h
  | cons e rest ih =>
    obtain ⟨k, w⟩ := e
    rw [find_cons] at h
    split at h
    · simp_all
    · exact List.mem_cons_of_mem _ (ih h)

omit [DecidableEq α] in
theorem find_of_mem {n : Nat} {c : CellList α} (h : Rising n c) {e : Nat × α} (he : e ∈ c) : find c e.1 = some e.2 := by
  induction c with
  | nil => simp at he
  | cons e' rest ih =>
    obtain ⟨k, w⟩ := e'
    obtain ⟨-, hlt, hr⟩ := rising_cons.mp h
    rw [find_cons]
    rcases List.mem_cons.mp he with rfl | he
    · simp
    · have := hlt e he
      rw [if_neg (by omega)]
      exact ih hr he

omit [DecidableEq α] in
/-- Two rising lists that list the same are equal. -/
theorem ext_find {n : Nat} {c c' : CellList α} (h : Rising n c) (h' : Rising n c') (hf : ∀ i, find c i = find c' i) :
    c = c' := by
  induction c generalizing c' with
  | nil =>
    cases c' with
    | nil => rfl
    | cons e rest => obtain ⟨k, w⟩ := e; have := hf k; simp [find_cons] at this
  | cons e rest ih =>
    obtain ⟨k, w⟩ := e
    obtain ⟨-, hlt, hr⟩ := rising_cons.mp h
    cases c' with
    | nil => have := hf k; simp [find_cons] at this
    | cons e' rest' =>
      obtain ⟨k', w'⟩ := e'
      obtain ⟨-, hlt', hr'⟩ := rising_cons.mp h'
      have hkk : k = k' := by
        rcases Nat.lt_trichotomy k k' with hk | hk | hk
        · have h1 := hf k
          rw [find_cons, find_cons, if_pos rfl, if_neg (by omega),
            find_eq_none (fun e he => by have := hlt' e he; omega)] at h1
          simp at h1
        · exact hk
        · have h1 := hf k'
          rw [find_cons, find_cons, if_pos rfl, if_neg (by omega),
            find_eq_none (fun e he => by have := hlt e he; omega)] at h1
          simp at h1
      subst hkk
      have hw : w = w' := by have h1 := hf k; simpa [find_cons] using h1
      subst hw
      refine congrArg _ (ih hr hr' fun i => ?_)
      have h1 := hf i
      simp only [find_cons] at h1
      split at h1
      · subst_vars
        rw [find_eq_none hlt, find_eq_none hlt']
      · exact h1

/-- Two arrays in canonical form that read the same everywhere are equal lists. -/
theorem ext_get {d : α} {n : Nat} {c c' : CellList α} (h : Canonical d n c) (h' : Canonical d n c')
    (hg : ∀ i, get d c i = get d c' i) : c = c' := by
  refine ext_find h.1 h'.1 fun i => ?_
  have hi := hg i
  unfold get at hi
  cases hc : find c i with
  | none =>
    cases hc' : find c' i with
    | none => rfl
    | some v' => rw [hc, hc'] at hi; exact absurd hi.symm (h'.2 _ (mem_of_find hc'))
  | some v =>
    cases hc' : find c' i with
    | none => rw [hc, hc'] at hi; exact absurd hi (h.2 _ (mem_of_find hc))
    | some v' => rw [hc, hc'] at hi; simpa using hi

omit [DecidableEq α] in
/-- An array with every element listed. -/
theorem rising_full (n : Nat) (f : Nat → α) : Rising n ((List.range n).map fun j => (j, f j)) := by
  refine ⟨?_, ?_⟩
  · rw [List.map_map]
    exact (List.map_id (List.range n)).symm ▸ List.pairwise_lt_range
  · intro e he
    obtain ⟨j, hj, rfl⟩ := List.mem_map.mp he
    exact List.mem_range.mp hj

omit [DecidableEq α] in
theorem find_full (n : Nat) (f : Nat → α) {i : Nat} (hi : i < n) :
    find ((List.range n).map fun j => (j, f j)) i = some (f i) :=
  find_of_mem (rising_full n f) (e := (i, f i)) (List.mem_map.mpr ⟨i, List.mem_range.mpr hi, rfl⟩)

end Sys2Proof.Machine.Cells
end

