-- ==== Sys2Proof/Laws/Arrays.lean ====
section
/-! SUPPORT. What the shared array operations do, said once: the address generator, the reorder of a frame, and the
scatter-add of a counter array. -/

namespace Sys2Proof.Machine

/-! ## The index permutation -/

theorem P_lt {k : Nat} (hk : k < 6400) : P k < 6400 := by
  simp only [P, rawRow, rawGroup, rawChannel]; omega

theorem P_injective {j k : Nat} (h : P j = P k) : j = k := by
  simp only [P, rawRow, rawGroup, rawChannel] at h
  have hg : ∀ n : Nat, n % 80 / 4 < 20 := fun n => by omega
  have hsplit : ∀ n : Nat, n = 80 * (n / 80) + 4 * (n % 80 / 4) + n % 4 := fun n => by omega
  have h1 := hg j
  have h2 := hg k
  have hrow : j / 80 = k / 80 := by omega
  have hgroup : j % 80 / 4 = k % 80 / 4 := by omega
  have hchannel : j % 4 = k % 4 := by omega
  rw [hsplit j, hsplit k, hrow, hgroup, hchannel]

/-- Both realizations of the address generator give `P` (40_reorderer.md R115). -/
theorem spatialIndex_eq (impl : ReorderImpl) {k : Nat} (hk : k < 6400) : spatialIndex impl k = P k := by
  cases impl with
  | wiring => rfl
  | rom =>
    have hP := P_lt hk
    simp only [spatialIndex, reorderRom, List.getD_eq_getElem?_getD, List.getElem?_map, List.getElem?_range hk,
      Option.map_some, Option.getD_some, BitVec.toNat_ofNat]
    exact Nat.mod_eq_of_lt (by omega)

theorem place_eq (s : State) {k : Nat} (hk : k < 6400) : place s k = P k := spatialIndex_eq _ hk

theorem place_lt (s : State) {k : Nat} (hk : k < 6400) : place s k < 6400 := place_eq s hk ▸ P_lt hk

/-! ## The raw indices of a frame -/

theorem rawIndices_eq : rawIndices = List.range 6400 := by unfold rawIndices; rfl

@[simp] theorem mem_rawIndices {k : Nat} : k ∈ rawIndices ↔ k < 6400 := by rw [rawIndices_eq, List.mem_range]

theorem rawIndices_nodup : rawIndices.Nodup := rawIndices_eq ▸ List.nodup_range

theorem rawIndices_length : rawIndices.length = 6400 := by rw [rawIndices_eq, List.length_range]

/-! ## Writing a frame in spatial order -/

section
variable {α : Type} [DecidableEq α]

theorem canonical_foldl_put {d : α} {n : Nat} {place : Nat → Nat} {raw : Nat → α} (l : List Nat) (c : CellList α)
    (hc : Cells.Canonical d n c) (hl : ∀ k ∈ l, place k < n) :
    Cells.Canonical d n (l.foldl (fun c k => Cells.put d c (place k) (raw k)) c) := by
  induction l generalizing c with
  | nil => exact hc
  | cons k l ih =>
    exact ih _ (Cells.canonical_put _ hc (hl k (by simp))) fun j hj => hl j (by simp [hj])

theorem get_foldl_put_of_notMem {d : α} {n : Nat} {place : Nat → Nat} {raw : Nat → α} (l : List Nat) (c : CellList α)
    (hc : Cells.Canonical d n c) (hl : ∀ k ∈ l, place k < n) {p : Nat} (hp : ∀ k ∈ l, place k ≠ p) :
    Cells.get d (l.foldl (fun c k => Cells.put d c (place k) (raw k)) c) p = Cells.get d c p := by
  induction l generalizing c with
  | nil => rfl
  | cons k l ih =>
    rw [List.foldl_cons, ih _ (Cells.canonical_put _ hc (hl k (by simp))) (fun j hj => hl j (by simp [hj]))
      (fun j hj => hp j (by simp [hj])), Cells.get_put hc.1, if_neg (Ne.symm (hp k (by simp)))]

theorem get_foldl_put_of_mem {d : α} {n : Nat} {place : Nat → Nat} {raw : Nat → α} (l : List Nat) (c : CellList α)
    (hc : Cells.Canonical d n c) (hl : ∀ k ∈ l, place k < n)
    (hinj : ∀ j ∈ l, ∀ k ∈ l, place j = place k → j = k) {k : Nat} (hk : k ∈ l) :
    Cells.get d (l.foldl (fun c k => Cells.put d c (place k) (raw k)) c) (place k) = raw k := by
  induction l generalizing c with
  | nil => simp at hk
  | cons j l ih =>
    have hc' := Cells.canonical_put (raw j) hc (hl j (by simp))
    have hl' : ∀ k ∈ l, place k < n := fun i hi => hl i (by simp [hi])
    rw [List.foldl_cons]
    by_cases hkl : k ∈ l
    · exact ih _ hc' hl' (fun a ha b hb => hinj a (by simp [ha]) b (by simp [hb])) hkl
    · have hkj : k = j := by simpa [hkl] using hk
      subst hkj
      rw [get_foldl_put_of_notMem l _ hc' hl', Cells.get_put hc.1, if_pos rfl]
      intro i hi he
      exact hkl (hinj i (by simp [hi]) k (by simp) he ▸ hi)

/-- A reordered frame holds each raw element at its spatial index (40_reorderer.md R114). -/
theorem get_reorderFrame (d : α) (s : State) (raw : Nat → α) {k : Nat} (hk : k < 6400) :
    Cells.get d (reorderFrame d (place s) raw) (P k) = raw k := by
  rw [← place_eq s hk]
  refine get_foldl_put_of_mem (n := 6400) _ _ (Cells.canonical_nil d 6400)
    (fun j hj => place_lt s (mem_rawIndices.mp hj)) (fun i hi j hj h => ?_) (mem_rawIndices.mpr hk)
  rw [place_eq s (mem_rawIndices.mp hi), place_eq s (mem_rawIndices.mp hj)] at h
  exact P_injective h

end

/-! ## Counter cells and the scatter-add -/

theorem bumpCell_cell_toNat {w : Nat} (hw : w ≤ 64) (cell : DWord) (inc : Nat) :
    (bumpCell w cell inc).1.toNat = (cell.toNat + inc) % 2 ^ w := by
  have h1 : (cell.toNat + inc) % 2 ^ w < 2 ^ w := Nat.mod_lt _ (Nat.two_pow_pos w)
  have h2 : 2 ^ w ≤ 2 ^ 64 := Nat.pow_le_pow_right (by omega) hw
  simp only [bumpCell, BitVec.toNat_ofNat]
  exact Nat.mod_eq_of_lt (by omega)

theorem bumpCell_wrapped (w : Nat) (cell : DWord) (inc : Nat) :
    (bumpCell w cell inc).2 = true ↔ 2 ^ w ≤ cell.toNat + inc := by simp [bumpCell]

/-- What a list of updates adds to the cell at `a` in all. -/
def updateTotal (u : List (Nat × Nat)) (a : Nat) : Nat :=
  match u with
  | [] => 0
  | (b, inc) :: rest => (if b = a then inc else 0) + updateTotal rest a

/-- Some update goes to the cell at `a`. -/
def updateTouches (u : List (Nat × Nat)) (a : Nat) : Prop := ∃ e ∈ u, e.1 = a

theorem updateTouches_of_total {u : List (Nat × Nat)} {a : Nat} (h : updateTotal u a ≠ 0) : updateTouches u a := by
  induction u with
  | nil => simp [updateTotal] at h
  | cons e rest ih =>
    obtain ⟨b, inc⟩ := e
    by_cases hb : b = a
    · exact ⟨(b, inc), by simp, hb⟩
    · simp only [updateTotal, if_neg hb, Nat.zero_add] at h
      obtain ⟨e, he, hea⟩ := ih h
      exact ⟨e, by simp [he], hea⟩

theorem scatterAdd_canonical {w n : Nat} (u : List (Nat × Nat)) (c : CellList DWord) (o : Bool)
    (hc : Cells.Canonical 0#64 n c) (hu : ∀ e ∈ u, e.1 < n) :
    Cells.Canonical 0#64 n (scatterAdd w u (c, o)).1 := by
  induction u generalizing c o with
  | nil => exact hc
  | cons e rest ih =>
    exact ih _ _ (Cells.canonical_put _ hc (hu e (by simp))) fun e' he => hu e' (by simp [he])

/-- A cell no update goes to keeps its value. -/
theorem scatterAdd_get_untouched {w n : Nat} (u : List (Nat × Nat)) (c : CellList DWord) (o : Bool)
    (hc : Cells.Canonical 0#64 n c) (hu : ∀ e ∈ u, e.1 < n) {a : Nat} (ha : ¬ updateTouches u a) :
    Cells.get 0#64 (scatterAdd w u (c, o)).1 a = Cells.get 0#64 c a := by
  induction u generalizing c o with
  | nil => rfl
  | cons e rest ih =>
    have hne : a ≠ e.1 := fun h => ha ⟨e, by simp, h.symm⟩
    rw [show scatterAdd w (e :: rest) (c, o) = scatterAdd w rest
        (Cells.put 0#64 c e.1 (bumpCell w (Cells.get 0#64 c e.1) e.2).1,
          o || (bumpCell w (Cells.get 0#64 c e.1) e.2).2) from rfl,
      ih _ _ (Cells.canonical_put _ hc (hu e (by simp))) (fun e' he => hu e' (by simp [he]))
        (fun ⟨e', he', h⟩ => ha ⟨e', by simp [he'], h⟩), Cells.get_put hc.1, if_neg hne]

/-- A cell some update goes to holds its old value plus all that is added, modulo `2^w`. -/
theorem scatterAdd_get_touched {w n : Nat} (hw : w ≤ 64) (u : List (Nat × Nat)) (c : CellList DWord) (o : Bool)
    (hc : Cells.Canonical 0#64 n c) (hu : ∀ e ∈ u, e.1 < n) {a : Nat} (ha : updateTouches u a) :
    (Cells.get 0#64 (scatterAdd w u (c, o)).1 a).toNat = ((Cells.get 0#64 c a).toNat + updateTotal u a) % 2 ^ w := by
  induction u generalizing c o with
  | nil => obtain ⟨e, he, -⟩ := ha; simp at he
  | cons e rest ih =>
    obtain ⟨b, inc⟩ := e
    have hc' := Cells.canonical_put (bumpCell w (Cells.get 0#64 c b) inc).1 hc (hu (b, inc) (by simp))
    have hu' : ∀ e ∈ rest, e.1 < n := fun e' he => hu e' (by simp [he])
    rw [show scatterAdd w ((b, inc) :: rest) (c, o) = scatterAdd w rest
        (Cells.put 0#64 c b (bumpCell w (Cells.get 0#64 c b) inc).1,
          o || (bumpCell w (Cells.get 0#64 c b) inc).2) from rfl]
    by_cases hr : updateTouches rest a
    · rw [ih _ _ hc' hu' hr, Cells.get_put hc.1]
      by_cases hab : a = b
      · subst hab
        simp only [if_true, bumpCell_cell_toNat hw, updateTotal, Nat.mod_add_mod, Nat.add_assoc]
      · simp only [if_neg hab, if_neg (Ne.symm hab), updateTotal, Nat.zero_add]
    · have hab : a = b := by
        obtain ⟨e, he, hea⟩ := ha
        rcases List.mem_cons.mp he with rfl | he
        · exact hea.symm
        · exact absurd ⟨e, he, hea⟩ hr
      subst hab
      have h0 : updateTotal rest a = 0 := by
        by_contra h; exact hr (updateTouches_of_total h)
      rw [scatterAdd_get_untouched rest _ _ hc' hu' hr, Cells.get_put hc.1]
      simp only [if_true, bumpCell_cell_toNat hw, updateTotal, h0, Nat.add_zero]

/-- The sticky record is set exactly when the exact total of some touched cell reaches `2^w`, in whatever order the
updates come (42_accumulator.md R166). -/
theorem scatterAdd_wrapped {w n : Nat} (hw : w ≤ 64) (u : List (Nat × Nat)) (c : CellList DWord) (o : Bool)
    (hc : Cells.Canonical 0#64 n c) (hu : ∀ e ∈ u, e.1 < n) :
    (scatterAdd w u (c, o)).2 = true ↔
      o = true ∨ ∃ a, updateTouches u a ∧ 2 ^ w ≤ (Cells.get 0#64 c a).toNat + updateTotal u a := by
  induction u generalizing c o with
  | nil => simp [scatterAdd, updateTouches]
  | cons e rest ih =>
    obtain ⟨b, inc⟩ := e
    have hc' := Cells.canonical_put (bumpCell w (Cells.get 0#64 c b) inc).1 hc (hu (b, inc) (by simp))
    have hu' : ∀ e ∈ rest, e.1 < n := fun e' he => hu e' (by simp [he])
    rw [show scatterAdd w ((b, inc) :: rest) (c, o) = scatterAdd w rest
        (Cells.put 0#64 c b (bumpCell w (Cells.get 0#64 c b) inc).1,
          o || (bumpCell w (Cells.get 0#64 c b) inc).2) from rfl,
      ih _ _ hc' hu', Bool.or_eq_true, bumpCell_wrapped]
    have htouch : ∀ {a}, updateTouches rest a → updateTouches ((b, inc) :: rest) a :=
      fun ⟨e, he, h⟩ => ⟨e, by simp [he], h⟩
    have hval : ∀ a, (Cells.get 0#64 (Cells.put 0#64 c b (bumpCell w (Cells.get 0#64 c b) inc).1) a).toNat =
        if a = b then ((Cells.get 0#64 c b).toNat + inc) % 2 ^ w else (Cells.get 0#64 c a).toNat := by
      intro a; rw [Cells.get_put hc.1]; split
      · exact bumpCell_cell_toNat hw _ _
      · rfl
    constructor
    · rintro ((ho | hb) | ⟨a, ha, hle⟩)
      · exact .inl ho
      · exact .inr ⟨b, ⟨(b, inc), by simp, rfl⟩, by simp only [updateTotal, if_true]; omega⟩
      · refine .inr ⟨a, htouch ha, ?_⟩
        rw [hval] at hle
        simp only [updateTotal]
        split at hle
        · have := Nat.mod_le ((Cells.get 0#64 c b).toNat + inc) (2 ^ w)
          subst_vars; simp only [if_true]; omega
        · rw [if_neg (Ne.symm ‹_›)]; omega
    · rintro (ho | ⟨a, ha, hle⟩)
      · exact .inl (.inl ho)
      · simp only [updateTotal] at hle
        by_cases hab : a = b
        · subst hab
          simp only [if_true] at hle
          by_cases hb : 2 ^ w ≤ (Cells.get 0#64 c a).toNat + inc
          · exact .inl (.inr hb)
          · refine .inr ⟨a, updateTouches_of_total (by omega), ?_⟩
            rw [hval, if_pos rfl, Nat.mod_eq_of_lt (by omega)]; omega
        · rw [if_neg (Ne.symm hab), Nat.zero_add] at hle
          have ha' : updateTouches rest a := by
            obtain ⟨e, he, hea⟩ := ha
            rcases List.mem_cons.mp he with rfl | he
            · exact absurd hea.symm hab
            · exact ⟨e, he, hea⟩
          exact .inr ⟨a, ha', by rw [hval, if_neg hab]; omega⟩

/-! ## The updates of the three ingests stay inside their arrays -/

theorem spatialUpdates_lt (s : State) : ∀ e ∈ spatialUpdates s, e.1 < 6400 := by
  intro e he
  simp only [spatialUpdates, List.mem_map, mem_rawIndices] at he
  obtain ⟨k, hk, rfl⟩ := he
  exact place_lt s hk

theorem rawBin_lt {x : Sample} {b : Nat} (h : rawBin x = some b) : b < 8192 := by
  simp only [rawBin] at h; split at h
  · simp only [Option.some.injEq] at h; omega
  · simp at h

/-- No raw sample is dropped (42_accumulator.md R162). -/
theorem rawBin_eq (x : Sample) : rawBin x = some (x.toNat / 8) := by
  have h := x.isLt
  simp only [rawBin, BitVec.toNat_ushiftRight, Nat.shiftRight_eq_div_pow]
  rw [if_pos (by omega)]

theorem rawHistUpdates_lt (s : State) : ∀ e ∈ rawHistUpdates s, e.1 < 8192 := by
  intro e he
  simp only [rawHistUpdates, List.mem_filterMap, Option.map_eq_some_iff] at he
  obtain ⟨k, -, b, hb, rfl⟩ := he
  exact rawBin_lt hb

theorem calBin_lt {v : F64} {b : Nat} (h : calBin v = some b) : b < 1000 := by
  unfold calBin at h
  split at h
  · split at h
    · split at h
      · simp only [Option.some.injEq] at h; omega
      · simp at h
    · simp at h
  · simp at h

theorem calHistUpdates_lt (s : State) : ∀ e ∈ calHistUpdates s, e.1 < 1000 := by
  intro e he
  simp only [calHistUpdates, List.mem_filterMap, Option.map_eq_some_iff] at he
  obtain ⟨k, -, b, hb, rfl⟩ := he
  exact calBin_lt hb

end Sys2Proof.Machine
end

