-- ==== Sys2Proof/Laws/State.lean ====
section
/-! SUPPORT. For each named update of the state, the value of each field after it, where that is a plain value. -/

namespace Sys2Proof.Machine

variable (s : State)

/-! ## raiseCmdError -/

@[simp] theorem raiseCmdError_build : (raiseCmdError s).build = s.build := rfl
@[simp] theorem raiseCmdError_driver : (raiseCmdError s).driver = s.driver := rfl
@[simp] theorem raiseCmdError_stopCause : (raiseCmdError s).stopCause = s.stopCause := rfl
@[simp] theorem raiseCmdError_frames : (raiseCmdError s).frames = s.frames := rfl
@[simp] theorem raiseCmdError_framesLatchHi : (raiseCmdError s).framesLatchHi = s.framesLatchHi := rfl
@[simp] theorem raiseCmdError_capEn : (raiseCmdError s).capEn = s.capEn := rfl
@[simp] theorem raiseCmdError_cap : (raiseCmdError s).cap = s.cap := rfl
@[simp] theorem raiseCmdError_coef : (raiseCmdError s).coef = s.coef := rfl
@[simp] theorem raiseCmdError_cnt : (raiseCmdError s).cnt = s.cnt := rfl
@[simp] theorem raiseCmdError_ovf : (raiseCmdError s).ovf = s.ovf := rfl
@[simp] theorem raiseCmdError_coefSel : (raiseCmdError s).coefSel = s.coefSel := rfl
@[simp] theorem raiseCmdError_coefLoHold : (raiseCmdError s).coefLoHold = s.coefLoHold := rfl
@[simp] theorem raiseCmdError_sum : (raiseCmdError s).sum = s.sum := rfl
@[simp] theorem raiseCmdError_rawhist : (raiseCmdError s).rawhist = s.rawhist := rfl
@[simp] theorem raiseCmdError_calhist : (raiseCmdError s).calhist = s.calhist := rfl
@[simp] theorem raiseCmdError_fbuf : (raiseCmdError s).fbuf = s.fbuf := rfl
@[simp] theorem raiseCmdError_fill : (raiseCmdError s).fill = s.fill := rfl
@[simp] theorem raiseCmdError_cfgErr : (raiseCmdError s).cfgErr = s.cfgErr := rfl
@[simp] theorem raiseCmdError_cmdErr : (raiseCmdError s).cmdErr = true := rfl
@[simp] theorem raiseCmdError_sumOvf : (raiseCmdError s).sumOvf = s.sumOvf := rfl
@[simp] theorem raiseCmdError_rhOvf : (raiseCmdError s).rhOvf = s.rhOvf := rfl
@[simp] theorem raiseCmdError_chOvf : (raiseCmdError s).chOvf = s.chOvf := rfl
@[simp] theorem raiseCmdError_rdSel : (raiseCmdError s).rdSel = s.rdSel := rfl
@[simp] theorem raiseCmdError_rdIdx : (raiseCmdError s).rdIdx = s.rdIdx := rfl
@[simp] theorem raiseCmdError_rdBuf : (raiseCmdError s).rdBuf = s.rdBuf := rfl
@[simp] theorem raiseCmdError_rdata : (raiseCmdError s).rdata = s.rdata := rfl
@[simp] theorem raiseCmdError_wires : (raiseCmdError s).wires = s.wires := rfl
@[simp] theorem raiseCmdError_draws : (raiseCmdError s).draws = s.draws := rfl
@[simp] theorem raiseCmdError_resets : (raiseCmdError s).resets = s.resets := rfl
@[simp] theorem raiseCmdError_busQueue : (raiseCmdError s).busQueue = s.busQueue := rfl
@[simp] theorem raiseCmdError_beats : (raiseCmdError s).beats = s.beats := rfl
@[simp] theorem raiseCmdError_sched : (raiseCmdError s).sched = s.sched := rfl

/-! ## raiseConfigError -/

@[simp] theorem raiseConfigError_build : (raiseConfigError s).build = s.build := rfl
@[simp] theorem raiseConfigError_driver : (raiseConfigError s).driver = s.driver := rfl
@[simp] theorem raiseConfigError_stopCause : (raiseConfigError s).stopCause = s.stopCause := rfl
@[simp] theorem raiseConfigError_frames : (raiseConfigError s).frames = s.frames := rfl
@[simp] theorem raiseConfigError_framesLatchHi : (raiseConfigError s).framesLatchHi = s.framesLatchHi := rfl
@[simp] theorem raiseConfigError_capEn : (raiseConfigError s).capEn = s.capEn := rfl
@[simp] theorem raiseConfigError_cap : (raiseConfigError s).cap = s.cap := rfl
@[simp] theorem raiseConfigError_coef : (raiseConfigError s).coef = s.coef := rfl
@[simp] theorem raiseConfigError_cnt : (raiseConfigError s).cnt = s.cnt := rfl
@[simp] theorem raiseConfigError_ovf : (raiseConfigError s).ovf = s.ovf := rfl
@[simp] theorem raiseConfigError_coefSel : (raiseConfigError s).coefSel = s.coefSel := rfl
@[simp] theorem raiseConfigError_coefLoHold : (raiseConfigError s).coefLoHold = s.coefLoHold := rfl
@[simp] theorem raiseConfigError_sum : (raiseConfigError s).sum = s.sum := rfl
@[simp] theorem raiseConfigError_rawhist : (raiseConfigError s).rawhist = s.rawhist := rfl
@[simp] theorem raiseConfigError_calhist : (raiseConfigError s).calhist = s.calhist := rfl
@[simp] theorem raiseConfigError_fbuf : (raiseConfigError s).fbuf = s.fbuf := rfl
@[simp] theorem raiseConfigError_fill : (raiseConfigError s).fill = s.fill := rfl
@[simp] theorem raiseConfigError_cfgErr : (raiseConfigError s).cfgErr = true := rfl
@[simp] theorem raiseConfigError_cmdErr : (raiseConfigError s).cmdErr = s.cmdErr := rfl
@[simp] theorem raiseConfigError_sumOvf : (raiseConfigError s).sumOvf = s.sumOvf := rfl
@[simp] theorem raiseConfigError_rhOvf : (raiseConfigError s).rhOvf = s.rhOvf := rfl
@[simp] theorem raiseConfigError_chOvf : (raiseConfigError s).chOvf = s.chOvf := rfl
@[simp] theorem raiseConfigError_rdSel : (raiseConfigError s).rdSel = s.rdSel := rfl
@[simp] theorem raiseConfigError_rdIdx : (raiseConfigError s).rdIdx = s.rdIdx := rfl
@[simp] theorem raiseConfigError_rdBuf : (raiseConfigError s).rdBuf = s.rdBuf := rfl
@[simp] theorem raiseConfigError_rdata : (raiseConfigError s).rdata = s.rdata := rfl
@[simp] theorem raiseConfigError_wires : (raiseConfigError s).wires = s.wires := rfl
@[simp] theorem raiseConfigError_draws : (raiseConfigError s).draws = s.draws := rfl
@[simp] theorem raiseConfigError_resets : (raiseConfigError s).resets = s.resets := rfl
@[simp] theorem raiseConfigError_busQueue : (raiseConfigError s).busQueue = s.busQueue := rfl
@[simp] theorem raiseConfigError_beats : (raiseConfigError s).beats = s.beats := rfl
@[simp] theorem raiseConfigError_sched : (raiseConfigError s).sched = s.sched := rfl

/-! ## returnData -/

@[simp] theorem returnData_build (v : Word) : (returnData s v).build = s.build := rfl
@[simp] theorem returnData_driver (v : Word) : (returnData s v).driver = s.driver := rfl
@[simp] theorem returnData_stopCause (v : Word) : (returnData s v).stopCause = s.stopCause := rfl
@[simp] theorem returnData_frames (v : Word) : (returnData s v).frames = s.frames := rfl
@[simp] theorem returnData_framesLatchHi (v : Word) : (returnData s v).framesLatchHi = s.framesLatchHi := rfl
@[simp] theorem returnData_capEn (v : Word) : (returnData s v).capEn = s.capEn := rfl
@[simp] theorem returnData_cap (v : Word) : (returnData s v).cap = s.cap := rfl
@[simp] theorem returnData_coef (v : Word) : (returnData s v).coef = s.coef := rfl
@[simp] theorem returnData_cnt (v : Word) : (returnData s v).cnt = s.cnt := rfl
@[simp] theorem returnData_ovf (v : Word) : (returnData s v).ovf = s.ovf := rfl
@[simp] theorem returnData_coefSel (v : Word) : (returnData s v).coefSel = s.coefSel := rfl
@[simp] theorem returnData_coefLoHold (v : Word) : (returnData s v).coefLoHold = s.coefLoHold := rfl
@[simp] theorem returnData_sum (v : Word) : (returnData s v).sum = s.sum := rfl
@[simp] theorem returnData_rawhist (v : Word) : (returnData s v).rawhist = s.rawhist := rfl
@[simp] theorem returnData_calhist (v : Word) : (returnData s v).calhist = s.calhist := rfl
@[simp] theorem returnData_fbuf (v : Word) : (returnData s v).fbuf = s.fbuf := rfl
@[simp] theorem returnData_fill (v : Word) : (returnData s v).fill = s.fill := rfl
@[simp] theorem returnData_cfgErr (v : Word) : (returnData s v).cfgErr = s.cfgErr := rfl
@[simp] theorem returnData_cmdErr (v : Word) : (returnData s v).cmdErr = s.cmdErr := rfl
@[simp] theorem returnData_sumOvf (v : Word) : (returnData s v).sumOvf = s.sumOvf := rfl
@[simp] theorem returnData_rhOvf (v : Word) : (returnData s v).rhOvf = s.rhOvf := rfl
@[simp] theorem returnData_chOvf (v : Word) : (returnData s v).chOvf = s.chOvf := rfl
@[simp] theorem returnData_rdSel (v : Word) : (returnData s v).rdSel = s.rdSel := rfl
@[simp] theorem returnData_rdIdx (v : Word) : (returnData s v).rdIdx = s.rdIdx := rfl
@[simp] theorem returnData_rdBuf (v : Word) : (returnData s v).rdBuf = s.rdBuf := rfl
@[simp] theorem returnData_rdata (v : Word) : (returnData s v).rdata = v := rfl
@[simp] theorem returnData_wires (v : Word) : (returnData s v).wires = s.wires := rfl
@[simp] theorem returnData_draws (v : Word) : (returnData s v).draws = s.draws := rfl
@[simp] theorem returnData_resets (v : Word) : (returnData s v).resets = s.resets := rfl
@[simp] theorem returnData_busQueue (v : Word) : (returnData s v).busQueue = s.busQueue := rfl
@[simp] theorem returnData_beats (v : Word) : (returnData s v).beats = s.beats := rfl
@[simp] theorem returnData_sched (v : Word) : (returnData s v).sched = s.sched := rfl

/-! ## readFramesLo -/

@[simp] theorem readFramesLo_build : (readFramesLo s).build = s.build := rfl
@[simp] theorem readFramesLo_driver : (readFramesLo s).driver = s.driver := rfl
@[simp] theorem readFramesLo_stopCause : (readFramesLo s).stopCause = s.stopCause := rfl
@[simp] theorem readFramesLo_frames : (readFramesLo s).frames = s.frames := rfl
@[simp] theorem readFramesLo_framesLatchHi : (readFramesLo s).framesLatchHi = highWord s.frames := rfl
@[simp] theorem readFramesLo_capEn : (readFramesLo s).capEn = s.capEn := rfl
@[simp] theorem readFramesLo_cap : (readFramesLo s).cap = s.cap := rfl
@[simp] theorem readFramesLo_coef : (readFramesLo s).coef = s.coef := rfl
@[simp] theorem readFramesLo_cnt : (readFramesLo s).cnt = s.cnt := rfl
@[simp] theorem readFramesLo_ovf : (readFramesLo s).ovf = s.ovf := rfl
@[simp] theorem readFramesLo_coefSel : (readFramesLo s).coefSel = s.coefSel := rfl
@[simp] theorem readFramesLo_coefLoHold : (readFramesLo s).coefLoHold = s.coefLoHold := rfl
@[simp] theorem readFramesLo_sum : (readFramesLo s).sum = s.sum := rfl
@[simp] theorem readFramesLo_rawhist : (readFramesLo s).rawhist = s.rawhist := rfl
@[simp] theorem readFramesLo_calhist : (readFramesLo s).calhist = s.calhist := rfl
@[simp] theorem readFramesLo_fbuf : (readFramesLo s).fbuf = s.fbuf := rfl
@[simp] theorem readFramesLo_fill : (readFramesLo s).fill = s.fill := rfl
@[simp] theorem readFramesLo_cfgErr : (readFramesLo s).cfgErr = s.cfgErr := rfl
@[simp] theorem readFramesLo_cmdErr : (readFramesLo s).cmdErr = s.cmdErr := rfl
@[simp] theorem readFramesLo_sumOvf : (readFramesLo s).sumOvf = s.sumOvf := rfl
@[simp] theorem readFramesLo_rhOvf : (readFramesLo s).rhOvf = s.rhOvf := rfl
@[simp] theorem readFramesLo_chOvf : (readFramesLo s).chOvf = s.chOvf := rfl
@[simp] theorem readFramesLo_rdSel : (readFramesLo s).rdSel = s.rdSel := rfl
@[simp] theorem readFramesLo_rdIdx : (readFramesLo s).rdIdx = s.rdIdx := rfl
@[simp] theorem readFramesLo_rdBuf : (readFramesLo s).rdBuf = s.rdBuf := rfl
@[simp] theorem readFramesLo_rdata : (readFramesLo s).rdata = lowWord s.frames := rfl
@[simp] theorem readFramesLo_wires : (readFramesLo s).wires = s.wires := rfl
@[simp] theorem readFramesLo_draws : (readFramesLo s).draws = s.draws := rfl
@[simp] theorem readFramesLo_resets : (readFramesLo s).resets = s.resets := rfl
@[simp] theorem readFramesLo_busQueue : (readFramesLo s).busQueue = s.busQueue := rfl
@[simp] theorem readFramesLo_beats : (readFramesLo s).beats = s.beats := rfl
@[simp] theorem readFramesLo_sched : (readFramesLo s).sched = s.sched := rfl

/-! ## selectGrid -/

@[simp] theorem selectGrid_build (g : Grid) : (selectGrid g s).build = s.build := rfl
@[simp] theorem selectGrid_driver (g : Grid) : (selectGrid g s).driver = s.driver := rfl
@[simp] theorem selectGrid_stopCause (g : Grid) : (selectGrid g s).stopCause = s.stopCause := rfl
@[simp] theorem selectGrid_frames (g : Grid) : (selectGrid g s).frames = s.frames := rfl
@[simp] theorem selectGrid_framesLatchHi (g : Grid) : (selectGrid g s).framesLatchHi = s.framesLatchHi := rfl
@[simp] theorem selectGrid_capEn (g : Grid) : (selectGrid g s).capEn = s.capEn := rfl
@[simp] theorem selectGrid_cap (g : Grid) : (selectGrid g s).cap = s.cap := rfl
@[simp] theorem selectGrid_coef (g : Grid) : (selectGrid g s).coef = s.coef := rfl
@[simp] theorem selectGrid_cnt (g : Grid) : (selectGrid g s).cnt = gridSet s.cnt g 0 := rfl
@[simp] theorem selectGrid_ovf (g : Grid) : (selectGrid g s).ovf = gridSet s.ovf g false := rfl
@[simp] theorem selectGrid_coefSel (g : Grid) : (selectGrid g s).coefSel = g := rfl
@[simp] theorem selectGrid_coefLoHold (g : Grid) : (selectGrid g s).coefLoHold = s.coefLoHold := rfl
@[simp] theorem selectGrid_sum (g : Grid) : (selectGrid g s).sum = s.sum := rfl
@[simp] theorem selectGrid_rawhist (g : Grid) : (selectGrid g s).rawhist = s.rawhist := rfl
@[simp] theorem selectGrid_calhist (g : Grid) : (selectGrid g s).calhist = s.calhist := rfl
@[simp] theorem selectGrid_fbuf (g : Grid) : (selectGrid g s).fbuf = s.fbuf := rfl
@[simp] theorem selectGrid_fill (g : Grid) : (selectGrid g s).fill = s.fill := rfl
@[simp] theorem selectGrid_cfgErr (g : Grid) : (selectGrid g s).cfgErr = s.cfgErr := rfl
@[simp] theorem selectGrid_cmdErr (g : Grid) : (selectGrid g s).cmdErr = s.cmdErr := rfl
@[simp] theorem selectGrid_sumOvf (g : Grid) : (selectGrid g s).sumOvf = s.sumOvf := rfl
@[simp] theorem selectGrid_rhOvf (g : Grid) : (selectGrid g s).rhOvf = s.rhOvf := rfl
@[simp] theorem selectGrid_chOvf (g : Grid) : (selectGrid g s).chOvf = s.chOvf := rfl
@[simp] theorem selectGrid_rdSel (g : Grid) : (selectGrid g s).rdSel = s.rdSel := rfl
@[simp] theorem selectGrid_rdIdx (g : Grid) : (selectGrid g s).rdIdx = s.rdIdx := rfl
@[simp] theorem selectGrid_rdBuf (g : Grid) : (selectGrid g s).rdBuf = s.rdBuf := rfl
@[simp] theorem selectGrid_rdata (g : Grid) : (selectGrid g s).rdata = s.rdata := rfl
@[simp] theorem selectGrid_wires (g : Grid) : (selectGrid g s).wires = s.wires := rfl
@[simp] theorem selectGrid_draws (g : Grid) : (selectGrid g s).draws = s.draws := rfl
@[simp] theorem selectGrid_resets (g : Grid) : (selectGrid g s).resets = s.resets := rfl
@[simp] theorem selectGrid_busQueue (g : Grid) : (selectGrid g s).busQueue = s.busQueue := rfl
@[simp] theorem selectGrid_beats (g : Grid) : (selectGrid g s).beats = s.beats := rfl
@[simp] theorem selectGrid_sched (g : Grid) : (selectGrid g s).sched = s.sched := rfl

/-! ## endOfStream -/

@[simp] theorem endOfStream_build : (endOfStream s).build = s.build := rfl
@[simp] theorem endOfStream_driver : (endOfStream s).driver = .stopped := rfl
@[simp] theorem endOfStream_stopCause : (endOfStream s).stopCause = .eos := rfl
@[simp] theorem endOfStream_frames : (endOfStream s).frames = s.frames := rfl
@[simp] theorem endOfStream_framesLatchHi : (endOfStream s).framesLatchHi = s.framesLatchHi := rfl
@[simp] theorem endOfStream_capEn : (endOfStream s).capEn = s.capEn := rfl
@[simp] theorem endOfStream_cap : (endOfStream s).cap = s.cap := rfl
@[simp] theorem endOfStream_coef : (endOfStream s).coef = s.coef := rfl
@[simp] theorem endOfStream_cnt : (endOfStream s).cnt = s.cnt := rfl
@[simp] theorem endOfStream_ovf : (endOfStream s).ovf = s.ovf := rfl
@[simp] theorem endOfStream_coefSel : (endOfStream s).coefSel = s.coefSel := rfl
@[simp] theorem endOfStream_coefLoHold : (endOfStream s).coefLoHold = s.coefLoHold := rfl
@[simp] theorem endOfStream_sum : (endOfStream s).sum = s.sum := rfl
@[simp] theorem endOfStream_rawhist : (endOfStream s).rawhist = s.rawhist := rfl
@[simp] theorem endOfStream_calhist : (endOfStream s).calhist = s.calhist := rfl
@[simp] theorem endOfStream_fbuf : (endOfStream s).fbuf = s.fbuf := rfl
@[simp] theorem endOfStream_fill : (endOfStream s).fill = 0 := rfl
@[simp] theorem endOfStream_cfgErr : (endOfStream s).cfgErr = s.cfgErr := rfl
@[simp] theorem endOfStream_cmdErr : (endOfStream s).cmdErr = s.cmdErr := rfl
@[simp] theorem endOfStream_sumOvf : (endOfStream s).sumOvf = s.sumOvf := rfl
@[simp] theorem endOfStream_rhOvf : (endOfStream s).rhOvf = s.rhOvf := rfl
@[simp] theorem endOfStream_chOvf : (endOfStream s).chOvf = s.chOvf := rfl
@[simp] theorem endOfStream_rdSel : (endOfStream s).rdSel = s.rdSel := rfl
@[simp] theorem endOfStream_rdIdx : (endOfStream s).rdIdx = s.rdIdx := rfl
@[simp] theorem endOfStream_rdBuf : (endOfStream s).rdBuf = s.rdBuf := rfl
@[simp] theorem endOfStream_rdata : (endOfStream s).rdata = s.rdata := rfl
@[simp] theorem endOfStream_wires : (endOfStream s).wires = s.wires := rfl
@[simp] theorem endOfStream_draws : (endOfStream s).draws = s.draws := rfl
@[simp] theorem endOfStream_resets : (endOfStream s).resets = s.resets := rfl
@[simp] theorem endOfStream_busQueue : (endOfStream s).busQueue = s.busQueue := rfl
@[simp] theorem endOfStream_beats : (endOfStream s).beats = s.beats := rfl
@[simp] theorem endOfStream_sched : (endOfStream s).sched = s.sched := rfl

/-! ## reorderRecord -/

@[simp] theorem reorderRecord_build : (reorderRecord s).build = s.build := by unfold reorderRecord; rfl
@[simp] theorem reorderRecord_driver : (reorderRecord s).driver = s.driver := by unfold reorderRecord; rfl
@[simp] theorem reorderRecord_stopCause : (reorderRecord s).stopCause = s.stopCause := by unfold reorderRecord; rfl
@[simp] theorem reorderRecord_frames : (reorderRecord s).frames = s.frames := by unfold reorderRecord; rfl
@[simp] theorem reorderRecord_framesLatchHi : (reorderRecord s).framesLatchHi = s.framesLatchHi := by unfold reorderRecord; rfl
@[simp] theorem reorderRecord_capEn : (reorderRecord s).capEn = s.capEn := by unfold reorderRecord; rfl
@[simp] theorem reorderRecord_cap : (reorderRecord s).cap = s.cap := by unfold reorderRecord; rfl
@[simp] theorem reorderRecord_coef : (reorderRecord s).coef = s.coef := by unfold reorderRecord; rfl
@[simp] theorem reorderRecord_cnt : (reorderRecord s).cnt = s.cnt := by unfold reorderRecord; rfl
@[simp] theorem reorderRecord_ovf : (reorderRecord s).ovf = s.ovf := by unfold reorderRecord; rfl
@[simp] theorem reorderRecord_coefSel : (reorderRecord s).coefSel = s.coefSel := by unfold reorderRecord; rfl
@[simp] theorem reorderRecord_coefLoHold : (reorderRecord s).coefLoHold = s.coefLoHold := by unfold reorderRecord; rfl
@[simp] theorem reorderRecord_sum : (reorderRecord s).sum = s.sum := by unfold reorderRecord; rfl
@[simp] theorem reorderRecord_rawhist : (reorderRecord s).rawhist = s.rawhist := by unfold reorderRecord; rfl
@[simp] theorem reorderRecord_calhist : (reorderRecord s).calhist = s.calhist := by unfold reorderRecord; rfl
@[simp] theorem reorderRecord_fbuf : (reorderRecord s).fbuf = s.fbuf := by unfold reorderRecord; rfl
@[simp] theorem reorderRecord_fill : (reorderRecord s).fill = s.fill := by unfold reorderRecord; rfl
@[simp] theorem reorderRecord_cfgErr : (reorderRecord s).cfgErr = s.cfgErr := by unfold reorderRecord; rfl
@[simp] theorem reorderRecord_cmdErr : (reorderRecord s).cmdErr = s.cmdErr := by unfold reorderRecord; rfl
@[simp] theorem reorderRecord_sumOvf : (reorderRecord s).sumOvf = s.sumOvf := by unfold reorderRecord; rfl
@[simp] theorem reorderRecord_rhOvf : (reorderRecord s).rhOvf = s.rhOvf := by unfold reorderRecord; rfl
@[simp] theorem reorderRecord_chOvf : (reorderRecord s).chOvf = s.chOvf := by unfold reorderRecord; rfl
@[simp] theorem reorderRecord_rdSel : (reorderRecord s).rdSel = s.rdSel := by unfold reorderRecord; rfl
@[simp] theorem reorderRecord_rdIdx : (reorderRecord s).rdIdx = s.rdIdx := by unfold reorderRecord; rfl
@[simp] theorem reorderRecord_rdBuf : (reorderRecord s).rdBuf = s.rdBuf := by unfold reorderRecord; rfl
@[simp] theorem reorderRecord_rdata : (reorderRecord s).rdata = s.rdata := by unfold reorderRecord; rfl
@[simp] theorem reorderRecord_draws : (reorderRecord s).draws = s.draws := by unfold reorderRecord; rfl
@[simp] theorem reorderRecord_resets : (reorderRecord s).resets = s.resets := by unfold reorderRecord; rfl
@[simp] theorem reorderRecord_busQueue : (reorderRecord s).busQueue = s.busQueue := by unfold reorderRecord; rfl
@[simp] theorem reorderRecord_beats : (reorderRecord s).beats = s.beats := by unfold reorderRecord; rfl
@[simp] theorem reorderRecord_sched : (reorderRecord s).sched = s.sched := by unfold reorderRecord; rfl

/-! ## ingestSpatialFrame -/

@[simp] theorem ingestSpatialFrame_build : (ingestSpatialFrame s).build = s.build := by unfold ingestSpatialFrame; rfl
@[simp] theorem ingestSpatialFrame_driver : (ingestSpatialFrame s).driver = s.driver := by unfold ingestSpatialFrame; rfl
@[simp] theorem ingestSpatialFrame_stopCause : (ingestSpatialFrame s).stopCause = s.stopCause := by unfold ingestSpatialFrame; rfl
@[simp] theorem ingestSpatialFrame_frames : (ingestSpatialFrame s).frames = s.frames := by unfold ingestSpatialFrame; rfl
@[simp] theorem ingestSpatialFrame_framesLatchHi : (ingestSpatialFrame s).framesLatchHi = s.framesLatchHi := by unfold ingestSpatialFrame; rfl
@[simp] theorem ingestSpatialFrame_capEn : (ingestSpatialFrame s).capEn = s.capEn := by unfold ingestSpatialFrame; rfl
@[simp] theorem ingestSpatialFrame_cap : (ingestSpatialFrame s).cap = s.cap := by unfold ingestSpatialFrame; rfl
@[simp] theorem ingestSpatialFrame_coef : (ingestSpatialFrame s).coef = s.coef := by unfold ingestSpatialFrame; rfl
@[simp] theorem ingestSpatialFrame_cnt : (ingestSpatialFrame s).cnt = s.cnt := by unfold ingestSpatialFrame; rfl
@[simp] theorem ingestSpatialFrame_ovf : (ingestSpatialFrame s).ovf = s.ovf := by unfold ingestSpatialFrame; rfl
@[simp] theorem ingestSpatialFrame_coefSel : (ingestSpatialFrame s).coefSel = s.coefSel := by unfold ingestSpatialFrame; rfl
@[simp] theorem ingestSpatialFrame_coefLoHold : (ingestSpatialFrame s).coefLoHold = s.coefLoHold := by unfold ingestSpatialFrame; rfl
@[simp] theorem ingestSpatialFrame_rawhist : (ingestSpatialFrame s).rawhist = s.rawhist := by unfold ingestSpatialFrame; rfl
@[simp] theorem ingestSpatialFrame_calhist : (ingestSpatialFrame s).calhist = s.calhist := by unfold ingestSpatialFrame; rfl
@[simp] theorem ingestSpatialFrame_fbuf : (ingestSpatialFrame s).fbuf = s.fbuf := by unfold ingestSpatialFrame; rfl
@[simp] theorem ingestSpatialFrame_fill : (ingestSpatialFrame s).fill = s.fill := by unfold ingestSpatialFrame; rfl
@[simp] theorem ingestSpatialFrame_cfgErr : (ingestSpatialFrame s).cfgErr = s.cfgErr := by unfold ingestSpatialFrame; rfl
@[simp] theorem ingestSpatialFrame_cmdErr : (ingestSpatialFrame s).cmdErr = s.cmdErr := by unfold ingestSpatialFrame; rfl
@[simp] theorem ingestSpatialFrame_rhOvf : (ingestSpatialFrame s).rhOvf = s.rhOvf := by unfold ingestSpatialFrame; rfl
@[simp] theorem ingestSpatialFrame_chOvf : (ingestSpatialFrame s).chOvf = s.chOvf := by unfold ingestSpatialFrame; rfl
@[simp] theorem ingestSpatialFrame_rdSel : (ingestSpatialFrame s).rdSel = s.rdSel := by unfold ingestSpatialFrame; rfl
@[simp] theorem ingestSpatialFrame_rdIdx : (ingestSpatialFrame s).rdIdx = s.rdIdx := by unfold ingestSpatialFrame; rfl
@[simp] theorem ingestSpatialFrame_rdBuf : (ingestSpatialFrame s).rdBuf = s.rdBuf := by unfold ingestSpatialFrame; rfl
@[simp] theorem ingestSpatialFrame_rdata : (ingestSpatialFrame s).rdata = s.rdata := by unfold ingestSpatialFrame; rfl
@[simp] theorem ingestSpatialFrame_wires : (ingestSpatialFrame s).wires = s.wires := by unfold ingestSpatialFrame; rfl
@[simp] theorem ingestSpatialFrame_draws : (ingestSpatialFrame s).draws = s.draws := by unfold ingestSpatialFrame; rfl
@[simp] theorem ingestSpatialFrame_resets : (ingestSpatialFrame s).resets = s.resets := by unfold ingestSpatialFrame; rfl
@[simp] theorem ingestSpatialFrame_busQueue : (ingestSpatialFrame s).busQueue = s.busQueue := by unfold ingestSpatialFrame; rfl
@[simp] theorem ingestSpatialFrame_beats : (ingestSpatialFrame s).beats = s.beats := by unfold ingestSpatialFrame; rfl
@[simp] theorem ingestSpatialFrame_sched : (ingestSpatialFrame s).sched = s.sched := by unfold ingestSpatialFrame; rfl

/-! ## ingestRawHistogram -/

@[simp] theorem ingestRawHistogram_build : (ingestRawHistogram s).build = s.build := by unfold ingestRawHistogram; rfl
@[simp] theorem ingestRawHistogram_driver : (ingestRawHistogram s).driver = s.driver := by unfold ingestRawHistogram; rfl
@[simp] theorem ingestRawHistogram_stopCause : (ingestRawHistogram s).stopCause = s.stopCause := by unfold ingestRawHistogram; rfl
@[simp] theorem ingestRawHistogram_frames : (ingestRawHistogram s).frames = s.frames := by unfold ingestRawHistogram; rfl
@[simp] theorem ingestRawHistogram_framesLatchHi : (ingestRawHistogram s).framesLatchHi = s.framesLatchHi := by unfold ingestRawHistogram; rfl
@[simp] theorem ingestRawHistogram_capEn : (ingestRawHistogram s).capEn = s.capEn := by unfold ingestRawHistogram; rfl
@[simp] theorem ingestRawHistogram_cap : (ingestRawHistogram s).cap = s.cap := by unfold ingestRawHistogram; rfl
@[simp] theorem ingestRawHistogram_coef : (ingestRawHistogram s).coef = s.coef := by unfold ingestRawHistogram; rfl
@[simp] theorem ingestRawHistogram_cnt : (ingestRawHistogram s).cnt = s.cnt := by unfold ingestRawHistogram; rfl
@[simp] theorem ingestRawHistogram_ovf : (ingestRawHistogram s).ovf = s.ovf := by unfold ingestRawHistogram; rfl
@[simp] theorem ingestRawHistogram_coefSel : (ingestRawHistogram s).coefSel = s.coefSel := by unfold ingestRawHistogram; rfl
@[simp] theorem ingestRawHistogram_coefLoHold : (ingestRawHistogram s).coefLoHold = s.coefLoHold := by unfold ingestRawHistogram; rfl
@[simp] theorem ingestRawHistogram_sum : (ingestRawHistogram s).sum = s.sum := by unfold ingestRawHistogram; rfl
@[simp] theorem ingestRawHistogram_calhist : (ingestRawHistogram s).calhist = s.calhist := by unfold ingestRawHistogram; rfl
@[simp] theorem ingestRawHistogram_fbuf : (ingestRawHistogram s).fbuf = s.fbuf := by unfold ingestRawHistogram; rfl
@[simp] theorem ingestRawHistogram_fill : (ingestRawHistogram s).fill = s.fill := by unfold ingestRawHistogram; rfl
@[simp] theorem ingestRawHistogram_cfgErr : (ingestRawHistogram s).cfgErr = s.cfgErr := by unfold ingestRawHistogram; rfl
@[simp] theorem ingestRawHistogram_cmdErr : (ingestRawHistogram s).cmdErr = s.cmdErr := by unfold ingestRawHistogram; rfl
@[simp] theorem ingestRawHistogram_sumOvf : (ingestRawHistogram s).sumOvf = s.sumOvf := by unfold ingestRawHistogram; rfl
@[simp] theorem ingestRawHistogram_chOvf : (ingestRawHistogram s).chOvf = s.chOvf := by unfold ingestRawHistogram; rfl
@[simp] theorem ingestRawHistogram_rdSel : (ingestRawHistogram s).rdSel = s.rdSel := by unfold ingestRawHistogram; rfl
@[simp] theorem ingestRawHistogram_rdIdx : (ingestRawHistogram s).rdIdx = s.rdIdx := by unfold ingestRawHistogram; rfl
@[simp] theorem ingestRawHistogram_rdBuf : (ingestRawHistogram s).rdBuf = s.rdBuf := by unfold ingestRawHistogram; rfl
@[simp] theorem ingestRawHistogram_rdata : (ingestRawHistogram s).rdata = s.rdata := by unfold ingestRawHistogram; rfl
@[simp] theorem ingestRawHistogram_wires : (ingestRawHistogram s).wires = s.wires := by unfold ingestRawHistogram; rfl
@[simp] theorem ingestRawHistogram_draws : (ingestRawHistogram s).draws = s.draws := by unfold ingestRawHistogram; rfl
@[simp] theorem ingestRawHistogram_resets : (ingestRawHistogram s).resets = s.resets := by unfold ingestRawHistogram; rfl
@[simp] theorem ingestRawHistogram_busQueue : (ingestRawHistogram s).busQueue = s.busQueue := by unfold ingestRawHistogram; rfl
@[simp] theorem ingestRawHistogram_beats : (ingestRawHistogram s).beats = s.beats := by unfold ingestRawHistogram; rfl
@[simp] theorem ingestRawHistogram_sched : (ingestRawHistogram s).sched = s.sched := by unfold ingestRawHistogram; rfl

/-! ## applyCalibrationFrame -/

@[simp] theorem applyCalibrationFrame_build : (applyCalibrationFrame s).build = s.build := by unfold applyCalibrationFrame; rfl
@[simp] theorem applyCalibrationFrame_driver : (applyCalibrationFrame s).driver = s.driver := by unfold applyCalibrationFrame; rfl
@[simp] theorem applyCalibrationFrame_stopCause : (applyCalibrationFrame s).stopCause = s.stopCause := by unfold applyCalibrationFrame; rfl
@[simp] theorem applyCalibrationFrame_frames : (applyCalibrationFrame s).frames = s.frames := by unfold applyCalibrationFrame; rfl
@[simp] theorem applyCalibrationFrame_framesLatchHi : (applyCalibrationFrame s).framesLatchHi = s.framesLatchHi := by unfold applyCalibrationFrame; rfl
@[simp] theorem applyCalibrationFrame_capEn : (applyCalibrationFrame s).capEn = s.capEn := by unfold applyCalibrationFrame; rfl
@[simp] theorem applyCalibrationFrame_cap : (applyCalibrationFrame s).cap = s.cap := by unfold applyCalibrationFrame; rfl
@[simp] theorem applyCalibrationFrame_coef : (applyCalibrationFrame s).coef = s.coef := by unfold applyCalibrationFrame; rfl
@[simp] theorem applyCalibrationFrame_cnt : (applyCalibrationFrame s).cnt = s.cnt := by unfold applyCalibrationFrame; rfl
@[simp] theorem applyCalibrationFrame_ovf : (applyCalibrationFrame s).ovf = s.ovf := by unfold applyCalibrationFrame; rfl
@[simp] theorem applyCalibrationFrame_coefSel : (applyCalibrationFrame s).coefSel = s.coefSel := by unfold applyCalibrationFrame; rfl
@[simp] theorem applyCalibrationFrame_coefLoHold : (applyCalibrationFrame s).coefLoHold = s.coefLoHold := by unfold applyCalibrationFrame; rfl
@[simp] theorem applyCalibrationFrame_sum : (applyCalibrationFrame s).sum = s.sum := by unfold applyCalibrationFrame; rfl
@[simp] theorem applyCalibrationFrame_rawhist : (applyCalibrationFrame s).rawhist = s.rawhist := by unfold applyCalibrationFrame; rfl
@[simp] theorem applyCalibrationFrame_calhist : (applyCalibrationFrame s).calhist = s.calhist := by unfold applyCalibrationFrame; rfl
@[simp] theorem applyCalibrationFrame_fbuf : (applyCalibrationFrame s).fbuf = s.fbuf := by unfold applyCalibrationFrame; rfl
@[simp] theorem applyCalibrationFrame_fill : (applyCalibrationFrame s).fill = s.fill := by unfold applyCalibrationFrame; rfl
@[simp] theorem applyCalibrationFrame_cfgErr : (applyCalibrationFrame s).cfgErr = s.cfgErr := by unfold applyCalibrationFrame; rfl
@[simp] theorem applyCalibrationFrame_cmdErr : (applyCalibrationFrame s).cmdErr = s.cmdErr := by unfold applyCalibrationFrame; rfl
@[simp] theorem applyCalibrationFrame_sumOvf : (applyCalibrationFrame s).sumOvf = s.sumOvf := by unfold applyCalibrationFrame; rfl
@[simp] theorem applyCalibrationFrame_rhOvf : (applyCalibrationFrame s).rhOvf = s.rhOvf := by unfold applyCalibrationFrame; rfl
@[simp] theorem applyCalibrationFrame_chOvf : (applyCalibrationFrame s).chOvf = s.chOvf := by unfold applyCalibrationFrame; rfl
@[simp] theorem applyCalibrationFrame_rdSel : (applyCalibrationFrame s).rdSel = s.rdSel := by unfold applyCalibrationFrame; rfl
@[simp] theorem applyCalibrationFrame_rdIdx : (applyCalibrationFrame s).rdIdx = s.rdIdx := by unfold applyCalibrationFrame; rfl
@[simp] theorem applyCalibrationFrame_rdBuf : (applyCalibrationFrame s).rdBuf = s.rdBuf := by unfold applyCalibrationFrame; rfl
@[simp] theorem applyCalibrationFrame_rdata : (applyCalibrationFrame s).rdata = s.rdata := by unfold applyCalibrationFrame; rfl
@[simp] theorem applyCalibrationFrame_draws : (applyCalibrationFrame s).draws = s.draws := by unfold applyCalibrationFrame; rfl
@[simp] theorem applyCalibrationFrame_resets : (applyCalibrationFrame s).resets = s.resets := by unfold applyCalibrationFrame; rfl
@[simp] theorem applyCalibrationFrame_busQueue : (applyCalibrationFrame s).busQueue = s.busQueue := by unfold applyCalibrationFrame; rfl
@[simp] theorem applyCalibrationFrame_beats : (applyCalibrationFrame s).beats = s.beats := by unfold applyCalibrationFrame; rfl
@[simp] theorem applyCalibrationFrame_sched : (applyCalibrationFrame s).sched = s.sched := by unfold applyCalibrationFrame; rfl

/-! ## calibPixel -/

@[simp] theorem calibPixel_build (x : Sample) (p : Nat) : (calibPixel s x p).build = s.build := rfl
@[simp] theorem calibPixel_driver (x : Sample) (p : Nat) : (calibPixel s x p).driver = s.driver := rfl
@[simp] theorem calibPixel_stopCause (x : Sample) (p : Nat) : (calibPixel s x p).stopCause = s.stopCause := rfl
@[simp] theorem calibPixel_frames (x : Sample) (p : Nat) : (calibPixel s x p).frames = s.frames := rfl
@[simp] theorem calibPixel_framesLatchHi (x : Sample) (p : Nat) : (calibPixel s x p).framesLatchHi = s.framesLatchHi := rfl
@[simp] theorem calibPixel_capEn (x : Sample) (p : Nat) : (calibPixel s x p).capEn = s.capEn := rfl
@[simp] theorem calibPixel_cap (x : Sample) (p : Nat) : (calibPixel s x p).cap = s.cap := rfl
@[simp] theorem calibPixel_coef (x : Sample) (p : Nat) : (calibPixel s x p).coef = s.coef := rfl
@[simp] theorem calibPixel_cnt (x : Sample) (p : Nat) : (calibPixel s x p).cnt = s.cnt := rfl
@[simp] theorem calibPixel_ovf (x : Sample) (p : Nat) : (calibPixel s x p).ovf = s.ovf := rfl
@[simp] theorem calibPixel_coefSel (x : Sample) (p : Nat) : (calibPixel s x p).coefSel = s.coefSel := rfl
@[simp] theorem calibPixel_coefLoHold (x : Sample) (p : Nat) : (calibPixel s x p).coefLoHold = s.coefLoHold := rfl
@[simp] theorem calibPixel_sum (x : Sample) (p : Nat) : (calibPixel s x p).sum = s.sum := rfl
@[simp] theorem calibPixel_rawhist (x : Sample) (p : Nat) : (calibPixel s x p).rawhist = s.rawhist := rfl
@[simp] theorem calibPixel_calhist (x : Sample) (p : Nat) : (calibPixel s x p).calhist = s.calhist := rfl
@[simp] theorem calibPixel_fbuf (x : Sample) (p : Nat) : (calibPixel s x p).fbuf = s.fbuf := rfl
@[simp] theorem calibPixel_fill (x : Sample) (p : Nat) : (calibPixel s x p).fill = s.fill := rfl
@[simp] theorem calibPixel_cfgErr (x : Sample) (p : Nat) : (calibPixel s x p).cfgErr = s.cfgErr := rfl
@[simp] theorem calibPixel_cmdErr (x : Sample) (p : Nat) : (calibPixel s x p).cmdErr = s.cmdErr := rfl
@[simp] theorem calibPixel_sumOvf (x : Sample) (p : Nat) : (calibPixel s x p).sumOvf = s.sumOvf := rfl
@[simp] theorem calibPixel_rhOvf (x : Sample) (p : Nat) : (calibPixel s x p).rhOvf = s.rhOvf := rfl
@[simp] theorem calibPixel_chOvf (x : Sample) (p : Nat) : (calibPixel s x p).chOvf = s.chOvf := rfl
@[simp] theorem calibPixel_rdSel (x : Sample) (p : Nat) : (calibPixel s x p).rdSel = s.rdSel := rfl
@[simp] theorem calibPixel_rdIdx (x : Sample) (p : Nat) : (calibPixel s x p).rdIdx = s.rdIdx := rfl
@[simp] theorem calibPixel_rdBuf (x : Sample) (p : Nat) : (calibPixel s x p).rdBuf = s.rdBuf := rfl
@[simp] theorem calibPixel_rdata (x : Sample) (p : Nat) : (calibPixel s x p).rdata = s.rdata := rfl
@[simp] theorem calibPixel_draws (x : Sample) (p : Nat) : (calibPixel s x p).draws = s.draws := rfl
@[simp] theorem calibPixel_resets (x : Sample) (p : Nat) : (calibPixel s x p).resets = s.resets := rfl
@[simp] theorem calibPixel_busQueue (x : Sample) (p : Nat) : (calibPixel s x p).busQueue = s.busQueue := rfl
@[simp] theorem calibPixel_beats (x : Sample) (p : Nat) : (calibPixel s x p).beats = s.beats := rfl
@[simp] theorem calibPixel_sched (x : Sample) (p : Nat) : (calibPixel s x p).sched = s.sched := rfl

/-! ## ingestCalHistogram -/

@[simp] theorem ingestCalHistogram_build : (ingestCalHistogram s).build = s.build := by unfold ingestCalHistogram; rfl
@[simp] theorem ingestCalHistogram_driver : (ingestCalHistogram s).driver = s.driver := by unfold ingestCalHistogram; rfl
@[simp] theorem ingestCalHistogram_stopCause : (ingestCalHistogram s).stopCause = s.stopCause := by unfold ingestCalHistogram; rfl
@[simp] theorem ingestCalHistogram_frames : (ingestCalHistogram s).frames = s.frames := by unfold ingestCalHistogram; rfl
@[simp] theorem ingestCalHistogram_framesLatchHi : (ingestCalHistogram s).framesLatchHi = s.framesLatchHi := by unfold ingestCalHistogram; rfl
@[simp] theorem ingestCalHistogram_capEn : (ingestCalHistogram s).capEn = s.capEn := by unfold ingestCalHistogram; rfl
@[simp] theorem ingestCalHistogram_cap : (ingestCalHistogram s).cap = s.cap := by unfold ingestCalHistogram; rfl
@[simp] theorem ingestCalHistogram_coef : (ingestCalHistogram s).coef = s.coef := by unfold ingestCalHistogram; rfl
@[simp] theorem ingestCalHistogram_cnt : (ingestCalHistogram s).cnt = s.cnt := by unfold ingestCalHistogram; rfl
@[simp] theorem ingestCalHistogram_ovf : (ingestCalHistogram s).ovf = s.ovf := by unfold ingestCalHistogram; rfl
@[simp] theorem ingestCalHistogram_coefSel : (ingestCalHistogram s).coefSel = s.coefSel := by unfold ingestCalHistogram; rfl
@[simp] theorem ingestCalHistogram_coefLoHold : (ingestCalHistogram s).coefLoHold = s.coefLoHold := by unfold ingestCalHistogram; rfl
@[simp] theorem ingestCalHistogram_sum : (ingestCalHistogram s).sum = s.sum := by unfold ingestCalHistogram; rfl
@[simp] theorem ingestCalHistogram_rawhist : (ingestCalHistogram s).rawhist = s.rawhist := by unfold ingestCalHistogram; rfl
@[simp] theorem ingestCalHistogram_fbuf : (ingestCalHistogram s).fbuf = s.fbuf := by unfold ingestCalHistogram; rfl
@[simp] theorem ingestCalHistogram_fill : (ingestCalHistogram s).fill = s.fill := by unfold ingestCalHistogram; rfl
@[simp] theorem ingestCalHistogram_cfgErr : (ingestCalHistogram s).cfgErr = s.cfgErr := by unfold ingestCalHistogram; rfl
@[simp] theorem ingestCalHistogram_cmdErr : (ingestCalHistogram s).cmdErr = s.cmdErr := by unfold ingestCalHistogram; rfl
@[simp] theorem ingestCalHistogram_sumOvf : (ingestCalHistogram s).sumOvf = s.sumOvf := by unfold ingestCalHistogram; rfl
@[simp] theorem ingestCalHistogram_rhOvf : (ingestCalHistogram s).rhOvf = s.rhOvf := by unfold ingestCalHistogram; rfl
@[simp] theorem ingestCalHistogram_rdSel : (ingestCalHistogram s).rdSel = s.rdSel := by unfold ingestCalHistogram; rfl
@[simp] theorem ingestCalHistogram_rdIdx : (ingestCalHistogram s).rdIdx = s.rdIdx := by unfold ingestCalHistogram; rfl
@[simp] theorem ingestCalHistogram_rdBuf : (ingestCalHistogram s).rdBuf = s.rdBuf := by unfold ingestCalHistogram; rfl
@[simp] theorem ingestCalHistogram_rdata : (ingestCalHistogram s).rdata = s.rdata := by unfold ingestCalHistogram; rfl
@[simp] theorem ingestCalHistogram_wires : (ingestCalHistogram s).wires = s.wires := by unfold ingestCalHistogram; rfl
@[simp] theorem ingestCalHistogram_draws : (ingestCalHistogram s).draws = s.draws := by unfold ingestCalHistogram; rfl
@[simp] theorem ingestCalHistogram_resets : (ingestCalHistogram s).resets = s.resets := by unfold ingestCalHistogram; rfl
@[simp] theorem ingestCalHistogram_busQueue : (ingestCalHistogram s).busQueue = s.busQueue := by unfold ingestCalHistogram; rfl
@[simp] theorem ingestCalHistogram_beats : (ingestCalHistogram s).beats = s.beats := by unfold ingestCalHistogram; rfl
@[simp] theorem ingestCalHistogram_sched : (ingestCalHistogram s).sched = s.sched := by unfold ingestCalHistogram; rfl

/-! ## countFrame -/

@[simp] theorem countFrame_build : (countFrame s).build = s.build := rfl
@[simp] theorem countFrame_frames : (countFrame s).frames = s.frames + 1#64 := rfl
@[simp] theorem countFrame_framesLatchHi : (countFrame s).framesLatchHi = s.framesLatchHi := rfl
@[simp] theorem countFrame_capEn : (countFrame s).capEn = s.capEn := rfl
@[simp] theorem countFrame_cap : (countFrame s).cap = s.cap := rfl
@[simp] theorem countFrame_coef : (countFrame s).coef = s.coef := rfl
@[simp] theorem countFrame_cnt : (countFrame s).cnt = s.cnt := rfl
@[simp] theorem countFrame_ovf : (countFrame s).ovf = s.ovf := rfl
@[simp] theorem countFrame_coefSel : (countFrame s).coefSel = s.coefSel := rfl
@[simp] theorem countFrame_coefLoHold : (countFrame s).coefLoHold = s.coefLoHold := rfl
@[simp] theorem countFrame_sum : (countFrame s).sum = s.sum := rfl
@[simp] theorem countFrame_rawhist : (countFrame s).rawhist = s.rawhist := rfl
@[simp] theorem countFrame_calhist : (countFrame s).calhist = s.calhist := rfl
@[simp] theorem countFrame_fbuf : (countFrame s).fbuf = s.fbuf := rfl
@[simp] theorem countFrame_fill : (countFrame s).fill = 0 := rfl
@[simp] theorem countFrame_cfgErr : (countFrame s).cfgErr = s.cfgErr := rfl
@[simp] theorem countFrame_cmdErr : (countFrame s).cmdErr = s.cmdErr := rfl
@[simp] theorem countFrame_sumOvf : (countFrame s).sumOvf = s.sumOvf := rfl
@[simp] theorem countFrame_rhOvf : (countFrame s).rhOvf = s.rhOvf := rfl
@[simp] theorem countFrame_chOvf : (countFrame s).chOvf = s.chOvf := rfl
@[simp] theorem countFrame_rdSel : (countFrame s).rdSel = s.rdSel := rfl
@[simp] theorem countFrame_rdIdx : (countFrame s).rdIdx = s.rdIdx := rfl
@[simp] theorem countFrame_rdBuf : (countFrame s).rdBuf = s.rdBuf := rfl
@[simp] theorem countFrame_rdata : (countFrame s).rdata = s.rdata := rfl
@[simp] theorem countFrame_wires : (countFrame s).wires = Wires.empty := rfl
@[simp] theorem countFrame_draws : (countFrame s).draws = s.draws := rfl
@[simp] theorem countFrame_resets : (countFrame s).resets = s.resets := rfl
@[simp] theorem countFrame_busQueue : (countFrame s).busQueue = s.busQueue := rfl
@[simp] theorem countFrame_beats : (countFrame s).beats = s.beats := rfl
@[simp] theorem countFrame_sched : (countFrame s).sched = s.sched := rfl

/-! ## commitFrame -/

@[simp] theorem commitFrame_build : (commitFrame s).build = s.build := by
  simp only [commitFrame, reorderRecord_build, ingestSpatialFrame_build, ingestRawHistogram_build, applyCalibrationFrame_build, ingestCalHistogram_build, countFrame_build]
@[simp] theorem commitFrame_frames : (commitFrame s).frames = s.frames + 1#64 := by
  simp only [commitFrame, reorderRecord_frames, ingestSpatialFrame_frames, ingestRawHistogram_frames, applyCalibrationFrame_frames, ingestCalHistogram_frames, countFrame_frames]
@[simp] theorem commitFrame_framesLatchHi : (commitFrame s).framesLatchHi = s.framesLatchHi := by
  simp only [commitFrame, reorderRecord_framesLatchHi, ingestSpatialFrame_framesLatchHi, ingestRawHistogram_framesLatchHi, applyCalibrationFrame_framesLatchHi, ingestCalHistogram_framesLatchHi, countFrame_framesLatchHi]
@[simp] theorem commitFrame_capEn : (commitFrame s).capEn = s.capEn := by
  simp only [commitFrame, reorderRecord_capEn, ingestSpatialFrame_capEn, ingestRawHistogram_capEn, applyCalibrationFrame_capEn, ingestCalHistogram_capEn, countFrame_capEn]
@[simp] theorem commitFrame_cap : (commitFrame s).cap = s.cap := by
  simp only [commitFrame, reorderRecord_cap, ingestSpatialFrame_cap, ingestRawHistogram_cap, applyCalibrationFrame_cap, ingestCalHistogram_cap, countFrame_cap]
@[simp] theorem commitFrame_coef : (commitFrame s).coef = s.coef := by
  simp only [commitFrame, reorderRecord_coef, ingestSpatialFrame_coef, ingestRawHistogram_coef, applyCalibrationFrame_coef, ingestCalHistogram_coef, countFrame_coef]
@[simp] theorem commitFrame_cnt : (commitFrame s).cnt = s.cnt := by
  simp only [commitFrame, reorderRecord_cnt, ingestSpatialFrame_cnt, ingestRawHistogram_cnt, applyCalibrationFrame_cnt, ingestCalHistogram_cnt, countFrame_cnt]
@[simp] theorem commitFrame_ovf : (commitFrame s).ovf = s.ovf := by
  simp only [commitFrame, reorderRecord_ovf, ingestSpatialFrame_ovf, ingestRawHistogram_ovf, applyCalibrationFrame_ovf, ingestCalHistogram_ovf, countFrame_ovf]
@[simp] theorem commitFrame_coefSel : (commitFrame s).coefSel = s.coefSel := by
  simp only [commitFrame, reorderRecord_coefSel, ingestSpatialFrame_coefSel, ingestRawHistogram_coefSel, applyCalibrationFrame_coefSel, ingestCalHistogram_coefSel, countFrame_coefSel]
@[simp] theorem commitFrame_coefLoHold : (commitFrame s).coefLoHold = s.coefLoHold := by
  simp only [commitFrame, reorderRecord_coefLoHold, ingestSpatialFrame_coefLoHold, ingestRawHistogram_coefLoHold, applyCalibrationFrame_coefLoHold, ingestCalHistogram_coefLoHold, countFrame_coefLoHold]
@[simp] theorem commitFrame_fbuf : (commitFrame s).fbuf = s.fbuf := by
  simp only [commitFrame, reorderRecord_fbuf, ingestSpatialFrame_fbuf, ingestRawHistogram_fbuf, applyCalibrationFrame_fbuf, ingestCalHistogram_fbuf, countFrame_fbuf]
@[simp] theorem commitFrame_fill : (commitFrame s).fill = 0 := by
  simp only [commitFrame, countFrame_fill]
@[simp] theorem commitFrame_cfgErr : (commitFrame s).cfgErr = s.cfgErr := by
  simp only [commitFrame, reorderRecord_cfgErr, ingestSpatialFrame_cfgErr, ingestRawHistogram_cfgErr, applyCalibrationFrame_cfgErr, ingestCalHistogram_cfgErr, countFrame_cfgErr]
@[simp] theorem commitFrame_cmdErr : (commitFrame s).cmdErr = s.cmdErr := by
  simp only [commitFrame, reorderRecord_cmdErr, ingestSpatialFrame_cmdErr, ingestRawHistogram_cmdErr, applyCalibrationFrame_cmdErr, ingestCalHistogram_cmdErr, countFrame_cmdErr]
@[simp] theorem commitFrame_rdSel : (commitFrame s).rdSel = s.rdSel := by
  simp only [commitFrame, reorderRecord_rdSel, ingestSpatialFrame_rdSel, ingestRawHistogram_rdSel, applyCalibrationFrame_rdSel, ingestCalHistogram_rdSel, countFrame_rdSel]
@[simp] theorem commitFrame_rdIdx : (commitFrame s).rdIdx = s.rdIdx := by
  simp only [commitFrame, reorderRecord_rdIdx, ingestSpatialFrame_rdIdx, ingestRawHistogram_rdIdx, applyCalibrationFrame_rdIdx, ingestCalHistogram_rdIdx, countFrame_rdIdx]
@[simp] theorem commitFrame_rdBuf : (commitFrame s).rdBuf = s.rdBuf := by
  simp only [commitFrame, reorderRecord_rdBuf, ingestSpatialFrame_rdBuf, ingestRawHistogram_rdBuf, applyCalibrationFrame_rdBuf, ingestCalHistogram_rdBuf, countFrame_rdBuf]
@[simp] theorem commitFrame_rdata : (commitFrame s).rdata = s.rdata := by
  simp only [commitFrame, reorderRecord_rdata, ingestSpatialFrame_rdata, ingestRawHistogram_rdata, applyCalibrationFrame_rdata, ingestCalHistogram_rdata, countFrame_rdata]
@[simp] theorem commitFrame_wires : (commitFrame s).wires = Wires.empty := by
  simp only [commitFrame, countFrame_wires]
@[simp] theorem commitFrame_draws : (commitFrame s).draws = s.draws := by
  simp only [commitFrame, reorderRecord_draws, ingestSpatialFrame_draws, ingestRawHistogram_draws, applyCalibrationFrame_draws, ingestCalHistogram_draws, countFrame_draws]
@[simp] theorem commitFrame_resets : (commitFrame s).resets = s.resets := by
  simp only [commitFrame, reorderRecord_resets, ingestSpatialFrame_resets, ingestRawHistogram_resets, applyCalibrationFrame_resets, ingestCalHistogram_resets, countFrame_resets]
@[simp] theorem commitFrame_busQueue : (commitFrame s).busQueue = s.busQueue := by
  simp only [commitFrame, reorderRecord_busQueue, ingestSpatialFrame_busQueue, ingestRawHistogram_busQueue, applyCalibrationFrame_busQueue, ingestCalHistogram_busQueue, countFrame_busQueue]
@[simp] theorem commitFrame_beats : (commitFrame s).beats = s.beats := by
  simp only [commitFrame, reorderRecord_beats, ingestSpatialFrame_beats, ingestRawHistogram_beats, applyCalibrationFrame_beats, ingestCalHistogram_beats, countFrame_beats]
@[simp] theorem commitFrame_sched : (commitFrame s).sched = s.sched := by
  simp only [commitFrame, reorderRecord_sched, ingestSpatialFrame_sched, ingestRawHistogram_sched, applyCalibrationFrame_sched, ingestCalHistogram_sched, countFrame_sched]

/-! ## resetEvent -/

@[simp] theorem resetEvent_build : (resetEvent s).build = s.build := rfl
@[simp] theorem resetEvent_driver : (resetEvent s).driver = State.reset.driver := rfl
@[simp] theorem resetEvent_stopCause : (resetEvent s).stopCause = State.reset.stopCause := rfl
@[simp] theorem resetEvent_frames : (resetEvent s).frames = State.reset.frames := rfl
@[simp] theorem resetEvent_framesLatchHi : (resetEvent s).framesLatchHi = State.reset.framesLatchHi := rfl
@[simp] theorem resetEvent_capEn : (resetEvent s).capEn = State.reset.capEn := rfl
@[simp] theorem resetEvent_cap : (resetEvent s).cap = State.reset.cap := rfl
@[simp] theorem resetEvent_coef : (resetEvent s).coef = State.reset.coef := rfl
@[simp] theorem resetEvent_cnt : (resetEvent s).cnt = State.reset.cnt := rfl
@[simp] theorem resetEvent_ovf : (resetEvent s).ovf = State.reset.ovf := rfl
@[simp] theorem resetEvent_coefSel : (resetEvent s).coefSel = State.reset.coefSel := rfl
@[simp] theorem resetEvent_coefLoHold : (resetEvent s).coefLoHold = State.reset.coefLoHold := rfl
@[simp] theorem resetEvent_sum : (resetEvent s).sum = State.reset.sum := rfl
@[simp] theorem resetEvent_rawhist : (resetEvent s).rawhist = State.reset.rawhist := rfl
@[simp] theorem resetEvent_calhist : (resetEvent s).calhist = State.reset.calhist := rfl
@[simp] theorem resetEvent_fbuf : (resetEvent s).fbuf = State.reset.fbuf := rfl
@[simp] theorem resetEvent_fill : (resetEvent s).fill = State.reset.fill := rfl
@[simp] theorem resetEvent_cfgErr : (resetEvent s).cfgErr = State.reset.cfgErr := rfl
@[simp] theorem resetEvent_cmdErr : (resetEvent s).cmdErr = State.reset.cmdErr := rfl
@[simp] theorem resetEvent_sumOvf : (resetEvent s).sumOvf = State.reset.sumOvf := rfl
@[simp] theorem resetEvent_rhOvf : (resetEvent s).rhOvf = State.reset.rhOvf := rfl
@[simp] theorem resetEvent_chOvf : (resetEvent s).chOvf = State.reset.chOvf := rfl
@[simp] theorem resetEvent_rdSel : (resetEvent s).rdSel = State.reset.rdSel := rfl
@[simp] theorem resetEvent_rdIdx : (resetEvent s).rdIdx = State.reset.rdIdx := rfl
@[simp] theorem resetEvent_rdBuf : (resetEvent s).rdBuf = State.reset.rdBuf := rfl
@[simp] theorem resetEvent_rdata : (resetEvent s).rdata = s.rdata := rfl
@[simp] theorem resetEvent_wires : (resetEvent s).wires = State.reset.wires := rfl
@[simp] theorem resetEvent_draws : (resetEvent s).draws = s.draws := rfl
@[simp] theorem resetEvent_resets : (resetEvent s).resets = s.resets + 1 := rfl
@[simp] theorem resetEvent_busQueue : (resetEvent s).busQueue = s.busQueue := rfl
@[simp] theorem resetEvent_beats : (resetEvent s).beats = s.beats := rfl
@[simp] theorem resetEvent_sched : (resetEvent s).sched = s.sched := rfl

end Sys2Proof.Machine
end

