-- ==== Sys2Proof/Laws/Pipeline.lean ====
section
/-! SUPPORT. What each frame operation does to the array it writes, pixel by pixel and bin by bin, and what a whole commit
comes to. -/

namespace Sys2Proof.Machine

/-! ## Totals of the three update lists -/

theorem updateTotal_map_of_injective {l : List Nat} {f g : Nat → Nat} (hn : l.Nodup)
    (hinj : ∀ j ∈ l, ∀ k ∈ l, f j = f k → j = k) {k : Nat} (hk : k ∈ l) :
    updateTotal (l.map fun j => (f j, g j)) (f k) = g k := by
  induction l with
  | nil => simp at hk
  | cons j l ih =>
    simp only [List.map_cons, updateTotal]
    have hn' := List.nodup_cons.mp hn
    have hzero : ∀ i ∈ l, f i ≠ f j := fun i hi h =>
      hn'.1 (hinj i (by simp [hi]) j (by simp) h ▸ hi)
    have hnone : ∀ (l' : List Nat), (∀ i ∈ l', f i ≠ f j) → updateTotal (l'.map fun j => (f j, g j)) (f j) = 0 := by
      intro l' hl'
      induction l' with
      | nil => rfl
      | cons i l' ih' =>
        simp only [List.map_cons, updateTotal, if_neg (hl' i (by simp)), ih' fun a ha => hl' a (by simp [ha])]
    by_cases hkl : k ∈ l
    · rw [if_neg (Ne.symm (hzero k hkl)), Nat.zero_add]
      exact ih hn'.2 (fun a ha b hb => hinj a (by simp [ha]) b (by simp [hb])) hkl
    · have hkj : k = j := by simpa [hkl] using hk
      subst hkj
      rw [if_pos rfl, hnone l hzero, Nat.add_zero]

theorem updateTotal_filterMap (l : List Nat) (bin : Nat → Option Nat) (b : Nat) :
    updateTotal (l.filterMap fun k => (bin k).map fun b => (b, 1)) b = l.countP fun k => bin k = some b := by
  induction l with
  | nil => rfl
  | cons k l ih =>
    rw [List.countP_cons, List.filterMap_cons]
    cases hk : bin k with
    | none => simp [ih]
    | some c =>
      simp only [Option.map_some, updateTotal, ih, Option.some.injEq]
      by_cases hcb : c = b <;> simp [hcb, Nat.add_comm]

theorem updateTouches_filterMap {l : List Nat} {bin : Nat → Option Nat} {b : Nat} :
    updateTouches (l.filterMap fun k => (bin k).map fun b => (b, 1)) b ↔ 0 < l.countP fun k => bin k = some b := by
  simp only [updateTouches, List.mem_filterMap, List.countP_pos_iff, decide_eq_true_eq, Option.map_eq_some_iff]
  constructor
  · rintro ⟨e, ⟨k, hk, c, hc, rfl⟩, rfl⟩; exact ⟨k, hk, hc⟩
  · rintro ⟨k, hk, hc⟩; exact ⟨(b, 1), ⟨k, hk, b, hc, rfl⟩, rfl⟩

theorem spatialUpdates_touches (s : State) {k : Nat} (hk : k < 6400) : updateTouches (spatialUpdates s) (P k) := by
  refine ⟨(place s k, (spatialAt s (place s k)).toNat), ?_, place_eq s hk⟩
  simp only [spatialUpdates, List.mem_map, mem_rawIndices]
  exact ⟨k, hk, rfl⟩

theorem spatialUpdates_total (s : State) {k : Nat} (hk : k < 6400) :
    updateTotal (spatialUpdates s) (P k) = (spatialAt s (P k)).toNat := by
  rw [← place_eq s hk]
  refine updateTotal_map_of_injective (f := place s) (g := fun k => (spatialAt s (place s k)).toNat) rawIndices_nodup
    (fun i hi j hj h => ?_) (mem_rawIndices.mpr hk)
  rw [place_eq s (mem_rawIndices.mp hi), place_eq s (mem_rawIndices.mp hj)] at h
  exact P_injective h

theorem spatialUpdates_touched {s : State} {a : Nat} (h : updateTouches (spatialUpdates s) a) :
    ∃ k, k < 6400 ∧ a = P k := by
  obtain ⟨e, he, rfl⟩ := h
  simp only [spatialUpdates, List.mem_map, mem_rawIndices] at he
  obtain ⟨k, hk, rfl⟩ := he
  exact ⟨k, hk, place_eq s hk⟩

/-- How many samples of the record in the frame buffer fall in raw bin `b`. -/
def rawBinCount (s : State) (b : Nat) : Nat := rawIndices.countP fun k => rawBin (sample s k) = some b

/-- How many calibrated values on the wires fall in bin `b`. -/
def calBinCount (s : State) (b : Nat) : Nat :=
  rawIndices.countP fun k => calBin (calibratedAt s (place s k)) = some b

theorem rawHistUpdates_total (s : State) (b : Nat) : updateTotal (rawHistUpdates s) b = rawBinCount s b :=
  updateTotal_filterMap rawIndices (fun k => rawBin (sample s k)) b

theorem rawHistUpdates_touches {s : State} {b : Nat} : updateTouches (rawHistUpdates s) b ↔ 0 < rawBinCount s b :=
  updateTouches_filterMap (bin := fun k => rawBin (sample s k))

theorem calHistUpdates_total (s : State) (b : Nat) : updateTotal (calHistUpdates s) b = calBinCount s b :=
  updateTotal_filterMap rawIndices (fun k => calBin (calibratedAt s (place s k))) b

theorem calHistUpdates_touches {s : State} {b : Nat} : updateTouches (calHistUpdates s) b ↔ 0 < calBinCount s b :=
  updateTouches_filterMap (bin := fun k => calBin (calibratedAt s (place s k)))

/-! ## The frame operations -/

/-- REORDER puts sample `k` at spatial index `P(k)` (40_reorderer.md R114). -/
theorem spatialAt_reorderRecord (s : State) {k : Nat} (hk : k < 6400) :
    spatialAt (reorderRecord s) (P k) = sample s k :=
  get_reorderFrame 0#16 s (sample s) hk

/-- APPLY_CALIBRATION puts CALIB of pixel `P(k)` at `P(k)` (42_accumulator.md R163). -/
theorem calibratedAt_applyCalibrationFrame (s : State) {k : Nat} (hk : k < 6400) :
    calibratedAt (applyCalibrationFrame s) (P k) = calibValue s (spatialAt s (P k)) (P k) :=
  (get_reorderFrame _ s (fun k => calibValue s (spatialAt s (place s k)) (place s k)) hk).trans (by rw [place_eq s hk])

/-- INGEST_SPATIAL on one pixel (42_accumulator.md R161). -/
theorem sumAt_ingestSpatialFrame {s : State} (hw : s.build.sumW ≤ 64) (hc : Cells.Canonical 0#64 6400 s.sum) {k : Nat}
    (hk : k < 6400) :
    (sumAt (ingestSpatialFrame s) (P k)).toNat =
      ((sumAt s (P k)).toNat + (spatialAt s (P k)).toNat) % 2 ^ s.build.sumW := by
  have h := scatterAdd_get_touched hw (spatialUpdates s) s.sum false hc (spatialUpdates_lt s)
    (spatialUpdates_touches s hk)
  rwa [spatialUpdates_total s hk] at h

/-- A cell that is no pixel is not written. -/
theorem sumAt_ingestSpatialFrame_other {s : State} (hc : Cells.Canonical 0#64 6400 s.sum) {p : Nat} (hp : 6400 ≤ p) :
    sumAt (ingestSpatialFrame s) p = sumAt s p :=
  scatterAdd_get_untouched (spatialUpdates s) s.sum false hc (spatialUpdates_lt s) fun ⟨e, he, h⟩ => by
    have := spatialUpdates_lt s e he; omega

/-- `sum_ovf` after INGEST_SPATIAL: sticky, set when some cell wraps (42_accumulator.md R161). -/
theorem sumOvf_ingestSpatialFrame {s : State} (hw : s.build.sumW ≤ 64) (hc : Cells.Canonical 0#64 6400 s.sum) :
    (ingestSpatialFrame s).sumOvf = true ↔ s.sumOvf = true ∨
      ∃ k, k < 6400 ∧ 2 ^ s.build.sumW ≤ (sumAt s (P k)).toNat + (spatialAt s (P k)).toNat := by
  have h := scatterAdd_wrapped hw (spatialUpdates s) s.sum false hc (spatialUpdates_lt s)
  rw [show (ingestSpatialFrame s).sumOvf =
    (s.sumOvf || (scatterAdd s.build.sumW (spatialUpdates s) (s.sum, false)).2) from by unfold ingestSpatialFrame; rfl,
    Bool.or_eq_true, h]
  constructor
  · rintro (h | h | ⟨a, ha, hle⟩)
    · exact .inl h
    · simp at h
    · obtain ⟨k, hk, rfl⟩ := spatialUpdates_touched ha
      rw [spatialUpdates_total s hk] at hle
      exact .inr ⟨k, hk, hle⟩
  · rintro (h | ⟨k, hk, hle⟩)
    · exact .inl h
    · exact .inr (.inr ⟨P k, spatialUpdates_touches s hk, by rw [spatialUpdates_total s hk]; exact hle⟩)

/-- INGEST_RAW_HIST on one bin that counts a sample (42_accumulator.md R162). -/
theorem rawhistAt_ingestRawHistogram {s : State} (hw : s.build.histW ≤ 64) (hc : Cells.Canonical 0#64 8192 s.rawhist)
    {b : Nat} (hb : 0 < rawBinCount s b) :
    (rawhistAt (ingestRawHistogram s) b).toNat = ((rawhistAt s b).toNat + rawBinCount s b) % 2 ^ s.build.histW := by
  have h := scatterAdd_get_touched hw (rawHistUpdates s) s.rawhist false hc (rawHistUpdates_lt s)
    (rawHistUpdates_touches.mpr hb)
  rwa [rawHistUpdates_total] at h

theorem rawhistAt_ingestRawHistogram_other {s : State} (hc : Cells.Canonical 0#64 8192 s.rawhist) {b : Nat}
    (hb : rawBinCount s b = 0) : rawhistAt (ingestRawHistogram s) b = rawhistAt s b :=
  scatterAdd_get_untouched (rawHistUpdates s) s.rawhist false hc (rawHistUpdates_lt s) fun h => by
    have := rawHistUpdates_touches.mp h; omega

/-- `rh_ovf` after INGEST_RAW_HIST (42_accumulator.md R162). -/
theorem rhOvf_ingestRawHistogram {s : State} (hw : s.build.histW ≤ 64) (hc : Cells.Canonical 0#64 8192 s.rawhist) :
    (ingestRawHistogram s).rhOvf = true ↔ s.rhOvf = true ∨
      ∃ b, 0 < rawBinCount s b ∧ 2 ^ s.build.histW ≤ (rawhistAt s b).toNat + rawBinCount s b := by
  have h := scatterAdd_wrapped hw (rawHistUpdates s) s.rawhist false hc (rawHistUpdates_lt s)
  rw [show (ingestRawHistogram s).rhOvf =
    (s.rhOvf || (scatterAdd s.build.histW (rawHistUpdates s) (s.rawhist, false)).2) from by
      unfold ingestRawHistogram; rfl,
    Bool.or_eq_true, h]
  simp only [rawHistUpdates_touches, rawHistUpdates_total, Bool.false_eq_true, false_or, rawhistAt]

/-- INGEST_CAL_HIST on one bin that counts a value (42_accumulator.md R164). -/
theorem calhistAt_ingestCalHistogram {s : State} (hw : s.build.histW ≤ 64) (hc : Cells.Canonical 0#64 1000 s.calhist)
    {b : Nat} (hb : 0 < calBinCount s b) :
    (calhistAt (ingestCalHistogram s) b).toNat = ((calhistAt s b).toNat + calBinCount s b) % 2 ^ s.build.histW := by
  have h := scatterAdd_get_touched hw (calHistUpdates s) s.calhist false hc (calHistUpdates_lt s)
    (calHistUpdates_touches.mpr hb)
  rwa [calHistUpdates_total] at h

theorem calhistAt_ingestCalHistogram_other {s : State} (hc : Cells.Canonical 0#64 1000 s.calhist) {b : Nat}
    (hb : calBinCount s b = 0) : calhistAt (ingestCalHistogram s) b = calhistAt s b :=
  scatterAdd_get_untouched (calHistUpdates s) s.calhist false hc (calHistUpdates_lt s) fun h => by
    have := calHistUpdates_touches.mp h; omega

/-- `ch_ovf` after INGEST_CAL_HIST (42_accumulator.md R164). -/
theorem chOvf_ingestCalHistogram {s : State} (hw : s.build.histW ≤ 64) (hc : Cells.Canonical 0#64 1000 s.calhist) :
    (ingestCalHistogram s).chOvf = true ↔ s.chOvf = true ∨
      ∃ b, 0 < calBinCount s b ∧ 2 ^ s.build.histW ≤ (calhistAt s b).toNat + calBinCount s b := by
  have h := scatterAdd_wrapped hw (calHistUpdates s) s.calhist false hc (calHistUpdates_lt s)
  rw [show (ingestCalHistogram s).chOvf =
    (s.chOvf || (scatterAdd s.build.histW (calHistUpdates s) (s.calhist, false)).2) from by
      unfold ingestCalHistogram; rfl,
    Bool.or_eq_true, h]
  simp only [calHistUpdates_touches, calHistUpdates_total, Bool.false_eq_true, false_or, calhistAt]

/-! ## The whole commit -/

/-- The samples depend on the frame buffer, the byte order and the reset count only. -/
theorem sample_congr {s t : State} (hb : t.build = s.build) (hf : t.fbuf = s.fbuf) (hr : t.resets = s.resets) (k : Nat) :
    sample t k = sample s k := by simp only [sample, fbufAt, hb, hf, hr]

/-- CALIB depends on the table, the build and the reset count only. -/
theorem calibValue_congr {s t : State} (hb : t.build = s.build) (hc : t.coef = s.coef) (hr : t.resets = s.resets)
    (x : Sample) (p : Nat) : calibValue t x p = calibValue s x p := by
  simp only [calibValue, coefAt, hb, hc, hr]

@[simp] theorem commitFrame_sum (s : State) : (commitFrame s).sum = (ingestSpatialFrame (reorderRecord s)).sum := by
  simp only [commitFrame, countFrame_sum, ingestCalHistogram_sum, applyCalibrationFrame_sum, ingestRawHistogram_sum]

@[simp] theorem commitFrame_sumOvf (s : State) :
    (commitFrame s).sumOvf = (ingestSpatialFrame (reorderRecord s)).sumOvf := by
  simp only [commitFrame, countFrame_sumOvf, ingestCalHistogram_sumOvf, applyCalibrationFrame_sumOvf,
    ingestRawHistogram_sumOvf]

/-- The raw histogram is filled from the samples, whatever the sum image and the wires hold. -/
theorem ingestRawHistogram_congr {s t : State} (hb : t.build = s.build) (hf : t.fbuf = s.fbuf)
    (hr : t.resets = s.resets) (hh : t.rawhist = s.rawhist) (ho : t.rhOvf = s.rhOvf) :
    (ingestRawHistogram t).rawhist = (ingestRawHistogram s).rawhist ∧
      (ingestRawHistogram t).rhOvf = (ingestRawHistogram s).rhOvf := by
  have hu : rawHistUpdates t = rawHistUpdates s := by
    simp only [rawHistUpdates, sample_congr hb hf hr]
  unfold ingestRawHistogram
  simp only [hu, hb, hh, ho, and_self]

@[simp] theorem commitFrame_rawhist (s : State) : (commitFrame s).rawhist = (ingestRawHistogram s).rawhist := by
  simp only [commitFrame, countFrame_rawhist, ingestCalHistogram_rawhist, applyCalibrationFrame_rawhist]
  exact (ingestRawHistogram_congr (by simp) (by simp) (by simp) (by simp) (by simp)).1

@[simp] theorem commitFrame_rhOvf (s : State) : (commitFrame s).rhOvf = (ingestRawHistogram s).rhOvf := by
  simp only [commitFrame, countFrame_rhOvf, ingestCalHistogram_rhOvf, applyCalibrationFrame_rhOvf]
  exact (ingestRawHistogram_congr (by simp) (by simp) (by simp) (by simp) (by simp)).2

/-- How many calibrated values of the record in the frame buffer fall in bin `b`. -/
def recordCalCount (s : State) (b : Nat) : Nat :=
  rawIndices.countP fun k => calBin (calibValue s (sample s k) (P k)) = some b

/-- The state in which a commit fills the calibrated histogram. -/
def calibratedRecord (s : State) : State :=
  applyCalibrationFrame (ingestRawHistogram (ingestSpatialFrame (reorderRecord s)))

theorem calibratedAt_calibratedRecord (s : State) {k : Nat} (hk : k < 6400) :
    calibratedAt (calibratedRecord s) (P k) = calibValue s (sample s k) (P k) := by
  rw [calibratedRecord, calibratedAt_applyCalibrationFrame _ hk, calibValue_congr (s := s) (by simp) (by simp) (by simp)]
  congr 1
  rw [← spatialAt_reorderRecord s hk]
  simp only [spatialAt, ingestRawHistogram_wires, ingestSpatialFrame_wires]

theorem calBinCount_calibratedRecord (s : State) (b : Nat) : calBinCount (calibratedRecord s) b = recordCalCount s b := by
  refine List.countP_congr fun k hk => ?_
  have hk' := mem_rawIndices.mp hk
  rw [place_eq _ hk', calibratedAt_calibratedRecord s hk']

theorem commitFrame_calhist_eq (s : State) :
    (commitFrame s).calhist = (ingestCalHistogram (calibratedRecord s)).calhist := by
  simp only [commitFrame, countFrame_calhist, calibratedRecord]

theorem commitFrame_chOvf_eq (s : State) :
    (commitFrame s).chOvf = (ingestCalHistogram (calibratedRecord s)).chOvf := by
  simp only [commitFrame, countFrame_chOvf, calibratedRecord]

theorem commitFrame_driver (s : State) :
    (commitFrame s).driver = if s.capEn = true ∧ s.frames + 1#64 = s.cap then .stopped else s.driver := by
  have h : ∀ t : State, (countFrame t).driver =
      if t.capEn = true ∧ t.frames + 1#64 = t.cap then .stopped else t.driver := by
    intro t; unfold countFrame; simp
  simp only [commitFrame, h, ingestCalHistogram_capEn, ingestCalHistogram_frames, ingestCalHistogram_cap,
    ingestCalHistogram_driver, applyCalibrationFrame_capEn, applyCalibrationFrame_frames, applyCalibrationFrame_cap,
    applyCalibrationFrame_driver, ingestRawHistogram_capEn, ingestRawHistogram_frames, ingestRawHistogram_cap,
    ingestRawHistogram_driver, ingestSpatialFrame_capEn, ingestSpatialFrame_frames, ingestSpatialFrame_cap,
    ingestSpatialFrame_driver, reorderRecord_capEn, reorderRecord_frames, reorderRecord_cap, reorderRecord_driver]

theorem commitFrame_stopCause (s : State) :
    (commitFrame s).stopCause = if s.capEn = true ∧ s.frames + 1#64 = s.cap then .cap else s.stopCause := by
  have h : ∀ t : State, (countFrame t).stopCause =
      if t.capEn = true ∧ t.frames + 1#64 = t.cap then .cap else t.stopCause := by
    intro t; unfold countFrame; simp
  simp only [commitFrame, h, ingestCalHistogram_capEn, ingestCalHistogram_frames, ingestCalHistogram_cap,
    ingestCalHistogram_stopCause, applyCalibrationFrame_capEn, applyCalibrationFrame_frames, applyCalibrationFrame_cap,
    applyCalibrationFrame_stopCause, ingestRawHistogram_capEn, ingestRawHistogram_frames, ingestRawHistogram_cap,
    ingestRawHistogram_stopCause, ingestSpatialFrame_capEn, ingestSpatialFrame_frames, ingestSpatialFrame_cap,
    ingestSpatialFrame_stopCause, reorderRecord_capEn, reorderRecord_frames, reorderRecord_cap, reorderRecord_stopCause]

/-! ## Frames: what each frame operation writes, and that it writes nothing else -/

theorem reorderRecord_writes (s : State) :
    reorderRecord s = { s with
      wires := { spatial := (reorderRecord s).wires.spatial, calibrated := s.wires.calibrated } } := by
  unfold reorderRecord; rfl

theorem ingestSpatialFrame_writes (s : State) :
    ingestSpatialFrame s = { s with sum := (ingestSpatialFrame s).sum, sumOvf := (ingestSpatialFrame s).sumOvf } := by
  unfold ingestSpatialFrame; rfl

theorem ingestRawHistogram_writes (s : State) :
    ingestRawHistogram s = { s with
      rawhist := (ingestRawHistogram s).rawhist, rhOvf := (ingestRawHistogram s).rhOvf } := by
  unfold ingestRawHistogram; rfl

theorem applyCalibrationFrame_writes (s : State) :
    applyCalibrationFrame s = { s with
      wires := { spatial := s.wires.spatial, calibrated := (applyCalibrationFrame s).wires.calibrated } } := by
  unfold applyCalibrationFrame; rfl

theorem ingestCalHistogram_writes (s : State) :
    ingestCalHistogram s = { s with
      calhist := (ingestCalHistogram s).calhist, chOvf := (ingestCalHistogram s).chOvf } := by
  unfold ingestCalHistogram; rfl

theorem commitFrame_writes (s : State) :
    commitFrame s = { s with
      sum := (commitFrame s).sum, sumOvf := (commitFrame s).sumOvf, rawhist := (commitFrame s).rawhist,
      rhOvf := (commitFrame s).rhOvf, calhist := (commitFrame s).calhist, chOvf := (commitFrame s).chOvf,
      frames := s.frames + 1#64, fill := 0, driver := (commitFrame s).driver, stopCause := (commitFrame s).stopCause,
      wires := Wires.empty } := by
  unfold commitFrame countFrame ingestCalHistogram applyCalibrationFrame ingestRawHistogram ingestSpatialFrame
    reorderRecord
  rfl

/-- The overflow flags are sticky through a commit (10_state.md R53). -/
theorem commitFrame_sticky (s : State) :
    (s.sumOvf = true → (commitFrame s).sumOvf = true) ∧ (s.rhOvf = true → (commitFrame s).rhOvf = true) ∧
    (s.chOvf = true → (commitFrame s).chOvf = true) := by
  refine ⟨fun h => ?_, fun h => ?_, fun h => ?_⟩
  · rw [commitFrame_sumOvf]; unfold ingestSpatialFrame; simp [h]
  · rw [commitFrame_rhOvf]; unfold ingestRawHistogram; simp [h]
  · rw [commitFrame_chOvf_eq]; unfold ingestCalHistogram; simp [calibratedRecord, h]

/-- What an accepted byte does: it is stored and counted, or it completes the record (43_driver.md R214). -/
theorem acceptByte_cases (data : Byte) (s : State) :
    (s.fill ≠ 12799 ∧
      acceptByte data s = { s with fbuf := Cells.insert s.fbuf s.fill data, fill := s.fill + 1 }) ∨
    (s.fill = 12799 ∧ acceptByte data s = commitFrame { s with fbuf := Cells.insert s.fbuf s.fill data }) := by
  unfold acceptByte
  by_cases h : s.fill = 12799
  · exact .inr ⟨h, if_pos h⟩
  · exact .inl ⟨h, if_neg h⟩

/-- What WR RD_CTRL may write (43_driver.md R198). -/
theorem latchReadback_writes (wdata : Word) (s : State) :
    latchReadback wdata s = { s with
      rdIdx := (latchReadback wdata s).rdIdx, rdSel := (latchReadback wdata s).rdSel,
      rdBuf := (latchReadback wdata s).rdBuf, cmdErr := (latchReadback wdata s).cmdErr,
      draws := (latchReadback wdata s).draws } := by
  unfold latchReadback; simp only []; split <;> [rfl; split] <;> rfl

end Sys2Proof.Machine
end

