-- ==== Sys2Proof/Laws/Memory.lean ====
section
/-! SUPPORT. Every operation that writes an internal array keeps the arrays in canonical form, and reset has it. -/

namespace Sys2Proof.Machine

/-- An update that touches no array keeps the form. -/
theorem Memory.wf_congr {s t : State} (h : Memory.wf s) (h1 : t.sum = s.sum) (h2 : t.rawhist = s.rawhist)
    (h3 : t.calhist = s.calhist) (h4 : t.coef = s.coef) (h5 : t.fbuf = s.fbuf) : Memory.wf t := by
  unfold Memory.wf at *; rwa [h1, h2, h3, h4, h5]

theorem Memory.wf_reset : Memory.wf State.reset :=
  ⟨Cells.canonical_nil _ _, Cells.canonical_nil _ _, Cells.canonical_nil _ _, Cells.rising_nil _, Cells.rising_nil _,
    Cells.rising_nil _, Cells.rising_nil _⟩

theorem Memory.wf_reorderRecord {s : State} (h : Memory.wf s) : Memory.wf (reorderRecord s) :=
  Memory.wf_congr h (by simp) (by simp) (by simp) (by simp) (by simp)

theorem Memory.wf_applyCalibrationFrame {s : State} (h : Memory.wf s) : Memory.wf (applyCalibrationFrame s) :=
  Memory.wf_congr h (by simp) (by simp) (by simp) (by simp) (by simp)

theorem Memory.wf_countFrame {s : State} (h : Memory.wf s) : Memory.wf (countFrame s) :=
  Memory.wf_congr h (by simp) (by simp) (by simp) (by simp) (by simp)

theorem Memory.canonical_ingestSpatialFrame {s : State} (h : Memory.wf s) :
    Cells.Canonical 0#64 6400 (ingestSpatialFrame s).sum :=
  scatterAdd_canonical _ _ _ h.1 (spatialUpdates_lt s)

theorem Memory.canonical_ingestRawHistogram {s : State} (h : Memory.wf s) :
    Cells.Canonical 0#64 8192 (ingestRawHistogram s).rawhist :=
  scatterAdd_canonical _ _ _ h.2.1 (rawHistUpdates_lt s)

theorem Memory.canonical_ingestCalHistogram {s : State} (h : Memory.wf s) :
    Cells.Canonical 0#64 1000 (ingestCalHistogram s).calhist :=
  scatterAdd_canonical _ _ _ h.2.2.1 (calHistUpdates_lt s)

theorem Memory.wf_ingestSpatialFrame {s : State} (h : Memory.wf s) : Memory.wf (ingestSpatialFrame s) := by
  refine ⟨Memory.canonical_ingestSpatialFrame h, ?_⟩
  simp only [ingestSpatialFrame_rawhist, ingestSpatialFrame_calhist, ingestSpatialFrame_coef, ingestSpatialFrame_fbuf]
  exact h.2

theorem Memory.wf_ingestRawHistogram {s : State} (h : Memory.wf s) : Memory.wf (ingestRawHistogram s) := by
  refine ⟨?_, Memory.canonical_ingestRawHistogram h, ?_⟩
  · rw [ingestRawHistogram_sum]; exact h.1
  · simp only [ingestRawHistogram_calhist, ingestRawHistogram_coef, ingestRawHistogram_fbuf]; exact h.2.2

theorem Memory.wf_ingestCalHistogram {s : State} (h : Memory.wf s) : Memory.wf (ingestCalHistogram s) := by
  refine ⟨?_, ?_, Memory.canonical_ingestCalHistogram h, ?_⟩
  · rw [ingestCalHistogram_sum]; exact h.1
  · rw [ingestCalHistogram_rawhist]; exact h.2.1
  · simp only [ingestCalHistogram_coef, ingestCalHistogram_fbuf]; exact h.2.2.2

theorem Memory.wf_commitFrame {s : State} (h : Memory.wf s) : Memory.wf (commitFrame s) :=
  Memory.wf_countFrame (Memory.wf_ingestCalHistogram (Memory.wf_applyCalibrationFrame
    (Memory.wf_ingestRawHistogram (Memory.wf_ingestSpatialFrame (Memory.wf_reorderRecord h)))))

theorem Memory.wf_storeByte {s : State} (h : Memory.wf s) (hf : s.fill < 12800) (data : Byte) :
    Memory.wf { s with fbuf := Cells.insert s.fbuf s.fill data } :=
  ⟨h.1, h.2.1, h.2.2.1, h.2.2.2.1, h.2.2.2.2.1, h.2.2.2.2.2.1, Cells.rising_insert data h.2.2.2.2.2.2 hf⟩

theorem Memory.wf_acceptByte {s : State} (h : Memory.wf s) (hf : s.fill < 12800) (data : Byte) :
    Memory.wf (acceptByte data s) := by
  have hs := Memory.wf_storeByte h hf data
  unfold acceptByte
  split
  · exact Memory.wf_commitFrame hs
  · exact Memory.wf_congr hs rfl rfl rfl rfl rfl

theorem Memory.wf_acceptLastByte {s : State} (h : Memory.wf s) (hf : s.fill < 12800) (data : Byte) :
    Memory.wf (acceptLastByte data s) := by
  have ht := Memory.wf_acceptByte h hf data
  simp only [acceptLastByte]
  split
  · exact Memory.wf_congr ht (by simp) (by simp) (by simp) (by simp) (by simp)
  · exact ht

theorem Memory.wf_commandInit {s : State} (h : Memory.wf s) : Memory.wf (commandInit s) := by
  unfold commandInit
  split
  · exact Memory.wf_congr h rfl rfl rfl rfl rfl
  · exact ⟨Cells.canonical_nil _ _, Cells.canonical_nil _ _, Cells.canonical_nil _ _, h.2.2.2⟩

theorem Memory.wf_commandStart {s : State} (h : Memory.wf s) : Memory.wf (commandStart s) := by
  unfold commandStart
  split
  · exact Memory.wf_congr h rfl rfl rfl rfl rfl
  · split
    · exact Memory.wf_congr h rfl rfl rfl rfl rfl
    · split <;> exact Memory.wf_congr h rfl rfl rfl rfl rfl

theorem Memory.wf_runCommand {s : State} (h : Memory.wf s) (wdata : Word) : Memory.wf (runCommand wdata s) := by
  unfold runCommand
  split
  · exact Memory.wf_congr h rfl rfl rfl rfl rfl
  · split
    · exact h
    · exact Memory.wf_commandInit h
    · exact Memory.wf_commandStart h

theorem Memory.wf_commitCoefficient {s : State} (h : Memory.wf s) (wdata : Word) :
    Memory.wf (commitCoefficient wdata s) := by
  simp only [commitCoefficient]
  split
  · rename_i hn
    have hp := place_lt s hn
    refine ⟨h.1, h.2.1, h.2.2.1, ?_⟩
    obtain ⟨h1, h2, h3, h4⟩ := h.2.2.2
    revert hp
    cases s.coefSel <;> intro hp
    · exact ⟨Cells.rising_insert _ h1 hp, h2, h3, h4⟩
    · exact ⟨h1, Cells.rising_insert _ h2 hp, h3, h4⟩
    · exact ⟨h1, h2, Cells.rising_insert _ h3 hp, h4⟩
  · exact Memory.wf_congr h rfl rfl rfl rfl rfl

theorem Memory.wf_latchReadback {s : State} (h : Memory.wf s) (wdata : Word) : Memory.wf (latchReadback wdata s) := by
  simp only [latchReadback]
  split
  · exact Memory.wf_congr h rfl rfl rfl rfl rfl
  · split <;> exact Memory.wf_congr h rfl rfl rfl rfl rfl

theorem Memory.wf_resetEvent (s : State) : Memory.wf (resetEvent s) := Memory.wf_reset

end Sys2Proof.Machine
end

