-- ==== Sys2Proof/Laws/PerInstr.lean ====
section
/-! SUPPORT. For each instruction: its encoding is a word of its own row of spec/opcode_table.json, in the row's format, with
the row's fixed bits. The rows' match and mask are copied from the table. -/

namespace Sys2Proof.Laws.EncodesOwnRow

/-- The packed word as the number the table's match and mask apply to. -/
def packed : Encoded → Nat
  | .bus key _ => key.toNat
  | .cmd word => word.toNat
  | .beat word => word.toNat

/-- Format, match and mask of the instruction's row; none for an INTERNAL row. -/
def tableRow : Instr → Option (Format × Nat × Nat)
  | .wrId _ => some (.bus, 0x40, 0x7C)
  | .wrCmd _ => some (.bus, 0x44, 0x7C)
  | .wrStatus _ => some (.bus, 0x48, 0x7C)
  | .wrConfig _ => some (.bus, 0x4C, 0x7C)
  | .wrCapLo _ => some (.bus, 0x50, 0x7C)
  | .wrCapHi _ => some (.bus, 0x54, 0x7C)
  | .wrFramesLo _ => some (.bus, 0x58, 0x7C)
  | .wrFramesHi _ => some (.bus, 0x5C, 0x7C)
  | .wrFill _ => some (.bus, 0x60, 0x7C)
  | .wrCoefSel _ => some (.bus, 0x64, 0x7C)
  | .wrCoefLo _ => some (.bus, 0x68, 0x7C)
  | .wrCoefHi _ => some (.bus, 0x6C, 0x7C)
  | .wrCoefStat _ => some (.bus, 0x70, 0x7C)
  | .wrRdCtrl _ => some (.bus, 0x74, 0x7C)
  | .wrRdLo _ => some (.bus, 0x78, 0x7C)
  | .wrRdHi _ => some (.bus, 0x7C, 0x7C)
  | .rdId => some (.bus, 0x00, 0x7C)
  | .rdCmd => some (.bus, 0x04, 0x7C)
  | .rdStatus => some (.bus, 0x08, 0x7C)
  | .rdConfig => some (.bus, 0x0C, 0x7C)
  | .rdCapLo => some (.bus, 0x10, 0x7C)
  | .rdCapHi => some (.bus, 0x14, 0x7C)
  | .rdFramesLo => some (.bus, 0x18, 0x7C)
  | .rdFramesHi => some (.bus, 0x1C, 0x7C)
  | .rdFill => some (.bus, 0x20, 0x7C)
  | .rdCoefSel => some (.bus, 0x24, 0x7C)
  | .rdCoefLo => some (.bus, 0x28, 0x7C)
  | .rdCoefHi => some (.bus, 0x2C, 0x7C)
  | .rdCoefStat => some (.bus, 0x30, 0x7C)
  | .rdRdCtrl => some (.bus, 0x34, 0x7C)
  | .rdRdLo => some (.bus, 0x38, 0x7C)
  | .rdRdHi => some (.bus, 0x3C, 0x7C)
  | .cmdNop => some (.cmd, 0x00000000, 0xFFFFFFFF)
  | .cmdInit => some (.cmd, 0x00000001, 0xFFFFFFFF)
  | .cmdStart => some (.cmd, 0x00000002, 0xFFFFFFFF)
  | .cmdIllegal _ => some (.cmd, 0x00000000, 0x00000000)
  | .beatNull => some (.beat, 0x000, 0x300)
  | .beatByte _ => some (.beat, 0x200, 0x300)
  | .beatByteLast _ => some (.beat, 0x300, 0x300)
  | .beatEos => some (.beat, 0x100, 0x300)
  | .reorder => none
  | .calib _ _ => none
  | .ingestSpatial => none
  | .ingestRawHist => none
  | .applyCalibration => none
  | .ingestCalHist => none
  | .frameCommit => none

/-- The encoding of a well-formed instruction is a word of its own row. -/
def Statement (i : Instr) : Prop :=
  i.wellFormed = true → ∀ e, encode i = some e → ∃ m k, tableRow i = some (e.format, m, k) ∧ packed e &&& k = m

theorem of_row {i : Instr} {e : Encoded} {m k : Nat} (he : encode i = some e) (hr : tableRow i = some (e.format, m, k))
    (hp : packed e &&& k = m) : Statement i := fun _ e' he' => by
  rw [he] at he'; cases he'; exact ⟨m, k, hr, hp⟩

theorem of_none {i : Instr} (h : encode i = none) : Statement i := fun _ e he => by rw [h] at he; cases he

theorem beat_bits (keep last : Bool) (data : Byte) :
    (beatWord keep last data).toNat &&& 0x300 = (if keep then 0x200 else 0) + (if last then 0x100 else 0) := by
  cases keep <;> cases last <;> revert data <;> decide

theorem wrId (wdata : Word) : Statement (.wrId wdata) := of_row rfl rfl (by simp only [packed]; decide)
theorem wrCmd (wdata : Word) : Statement (.wrCmd wdata) := of_row rfl rfl (by simp only [packed]; decide)
theorem wrStatus (wdata : Word) : Statement (.wrStatus wdata) := of_row rfl rfl (by simp only [packed]; decide)
theorem wrConfig (wdata : Word) : Statement (.wrConfig wdata) := of_row rfl rfl (by simp only [packed]; decide)
theorem wrCapLo (wdata : Word) : Statement (.wrCapLo wdata) := of_row rfl rfl (by simp only [packed]; decide)
theorem wrCapHi (wdata : Word) : Statement (.wrCapHi wdata) := of_row rfl rfl (by simp only [packed]; decide)
theorem wrFramesLo (wdata : Word) : Statement (.wrFramesLo wdata) := of_row rfl rfl (by simp only [packed]; decide)
theorem wrFramesHi (wdata : Word) : Statement (.wrFramesHi wdata) := of_row rfl rfl (by simp only [packed]; decide)
theorem wrFill (wdata : Word) : Statement (.wrFill wdata) := of_row rfl rfl (by simp only [packed]; decide)
theorem wrCoefSel (wdata : Word) : Statement (.wrCoefSel wdata) := of_row rfl rfl (by simp only [packed]; decide)
theorem wrCoefLo (wdata : Word) : Statement (.wrCoefLo wdata) := of_row rfl rfl (by simp only [packed]; decide)
theorem wrCoefHi (wdata : Word) : Statement (.wrCoefHi wdata) := of_row rfl rfl (by simp only [packed]; decide)
theorem wrCoefStat (wdata : Word) : Statement (.wrCoefStat wdata) := of_row rfl rfl (by simp only [packed]; decide)
theorem wrRdCtrl (wdata : Word) : Statement (.wrRdCtrl wdata) := of_row rfl rfl (by simp only [packed]; decide)
theorem wrRdLo (wdata : Word) : Statement (.wrRdLo wdata) := of_row rfl rfl (by simp only [packed]; decide)
theorem wrRdHi (wdata : Word) : Statement (.wrRdHi wdata) := of_row rfl rfl (by simp only [packed]; decide)
theorem rdId : Statement .rdId := of_row rfl rfl (by simp only [packed]; decide)
theorem rdCmd : Statement .rdCmd := of_row rfl rfl (by simp only [packed]; decide)
theorem rdStatus : Statement .rdStatus := of_row rfl rfl (by simp only [packed]; decide)
theorem rdConfig : Statement .rdConfig := of_row rfl rfl (by simp only [packed]; decide)
theorem rdCapLo : Statement .rdCapLo := of_row rfl rfl (by simp only [packed]; decide)
theorem rdCapHi : Statement .rdCapHi := of_row rfl rfl (by simp only [packed]; decide)
theorem rdFramesLo : Statement .rdFramesLo := of_row rfl rfl (by simp only [packed]; decide)
theorem rdFramesHi : Statement .rdFramesHi := of_row rfl rfl (by simp only [packed]; decide)
theorem rdFill : Statement .rdFill := of_row rfl rfl (by simp only [packed]; decide)
theorem rdCoefSel : Statement .rdCoefSel := of_row rfl rfl (by simp only [packed]; decide)
theorem rdCoefLo : Statement .rdCoefLo := of_row rfl rfl (by simp only [packed]; decide)
theorem rdCoefHi : Statement .rdCoefHi := of_row rfl rfl (by simp only [packed]; decide)
theorem rdCoefStat : Statement .rdCoefStat := of_row rfl rfl (by simp only [packed]; decide)
theorem rdRdCtrl : Statement .rdRdCtrl := of_row rfl rfl (by simp only [packed]; decide)
theorem rdRdLo : Statement .rdRdLo := of_row rfl rfl (by simp only [packed]; decide)
theorem rdRdHi : Statement .rdRdHi := of_row rfl rfl (by simp only [packed]; decide)
theorem cmdNop : Statement .cmdNop := of_row rfl rfl (by simp only [packed]; decide)
theorem cmdInit : Statement .cmdInit := of_row rfl rfl (by simp only [packed]; decide)
theorem cmdStart : Statement .cmdStart := of_row rfl rfl (by simp only [packed]; decide)
theorem cmdIllegal (word : Word) : Statement (.cmdIllegal word) := of_row rfl rfl (Nat.and_zero _)
theorem beatNull : Statement .beatNull := of_row rfl rfl (by simp only [packed]; decide)
theorem beatByte (data : Byte) : Statement (.beatByte data) := of_row rfl rfl (beat_bits true false data)
theorem beatByteLast (data : Byte) : Statement (.beatByteLast data) := of_row rfl rfl (beat_bits true true data)
theorem beatEos : Statement .beatEos := of_row rfl rfl (by simp only [packed]; decide)
theorem reorder : Statement .reorder := of_none rfl
theorem calib (x : Sample) (p : BitVec 13) : Statement (.calib x p) := of_none rfl
theorem ingestSpatial : Statement .ingestSpatial := of_none rfl
theorem ingestRawHist : Statement .ingestRawHist := of_none rfl
theorem applyCalibration : Statement .applyCalibration := of_none rfl
theorem ingestCalHist : Statement .ingestCalHist := of_none rfl
theorem frameCommit : Statement .frameCommit := of_none rfl

end Sys2Proof.Laws.EncodesOwnRow
end

