-- ==== Sys2Proof/Laws/Safety.lean ====
section
/-! SUPPORT. The small lemmas of conservation and of the numbers finite values stand for, and how many values a list of bins
holds in all. -/

namespace Sys2Proof.Machine

/-! ## Conservation -/

/-- An update that touches no accumulator keeps the totals. -/
theorem Conserved.congr {N S : Nat} {s t : State} (h : Conserved N S s) (hf : t.frames = s.frames)
    (hr : t.rawhist = s.rawhist) (hc : t.calhist = s.calhist) (hs : t.sum = s.sum) (hro : t.rhOvf = s.rhOvf)
    (hso : t.sumOvf = s.sumOvf) : Conserved N S t where
  frames := by rw [hf]; exact h.frames
  raw := by simpa only [rawhistAt, hr, hro] using h.raw
  cal := by simpa only [calhistAt, hc] using h.cal
  sum := by simpa only [sumAt, hs, hso] using h.sum

/-- Cleared accumulators have counted nothing. -/
theorem Conserved.of_clear {s : State} (hf : s.frames = 0#64) (hr : s.rawhist = []) (hc : s.calhist = [])
    (hs : s.sum = []) : Conserved 0 0 s where
  frames := by rw [hf]; rfl
  raw := fun _ => by simp [rawhistAt, hr]
  cal := by simp [calhistAt, hc]
  sum := fun _ => by simp [sumAt, hs]

/-- A list's values fall in the first `n` bins at most once each. -/
theorem sum_countP_bin_le (n : Nat) (bin : Nat → Option Nat) (l : List Nat) :
    ∑ b ∈ Finset.range n, l.countP (fun k => bin k = some b) ≤ l.length := by
  induction l with
  | nil => simp
  | cons k rest ih =>
    have h1 : ∑ b ∈ Finset.range n, (if bin k = some b then 1 else 0) ≤ 1 := by
      cases bin k with
      | none => simp
      | some c => simp only [Option.some.injEq, Finset.sum_ite_eq]; split <;> omega
    simp only [List.countP_cons, decide_eq_true_eq, Finset.sum_add_distrib, List.length_cons]
    omega

/-- Values that all have a bin below `n` fall in the first `n` bins exactly once each. -/
theorem sum_countP_bin_eq {n : Nat} {bin : Nat → Option Nat} {l : List Nat} (h : ∀ k ∈ l, ∃ b, b < n ∧ bin k = some b) :
    ∑ b ∈ Finset.range n, l.countP (fun k => bin k = some b) = l.length := by
  induction l with
  | nil => simp
  | cons k rest ih =>
    obtain ⟨c, hc, hk⟩ := h k (by simp)
    have h1 : ∑ b ∈ Finset.range n, (if bin k = some b then 1 else 0) = 1 := by
      simp only [hk, Option.some.injEq, Finset.sum_ite_eq, Finset.mem_range, hc, if_true]
    have h2 := ih fun j hj => h j (by simp [hj])
    simp only [List.countP_cons, decide_eq_true_eq, Finset.sum_add_distrib, List.length_cons]
    omega

/-! ## The numbers of binary64 values -/

theorem F64.value_fin (neg : Bool) (m q : Nat) :
    (F64.fin neg m q).value = (if neg then -1 else 1) * (m * 2 ^ q / 2 ^ 1074) := rfl

/-- The other sign is the other number. -/
theorem F64.value_neg (a : F64) : (fneg64 a).value = -a.value := by
  cases a with
  | nan => simp [fneg64, F64.value]
  | inf neg => simp [fneg64, F64.value]
  | fin neg m q => cases neg <;> simp [fneg64, F64.value]

/-- A value counted in units of 2^-1074. -/
theorem F64.signedUnits_eq (neg : Bool) (m q : Nat) :
    (F64.signedUnits neg m q : ℚ) = (F64.fin neg m q).value * 2 ^ 1074 := by
  rw [F64.value_fin]
  generalize hU : (2 : ℚ) ^ 1074 = U
  have hpos : (0 : ℚ) < U := hU ▸ pow_pos two_pos 1074
  cases neg <;> simp [F64.signedUnits, F64.units, hpos.ne']

/-- The magnitude counted in units of 2^-1074. -/
theorem F64.abs_value_fin (neg : Bool) (m q : Nat) : |(F64.fin neg m q).value| = (F64.units m q : ℚ) / 2 ^ 1074 := by
  rw [F64.value_fin]
  generalize hU : (2 : ℚ) ^ 1074 = U
  have hpos : (0 : ℚ) < U := hU ▸ pow_pos two_pos 1074
  clear hU
  have h : (0 : ℚ) ≤ m * 2 ^ q / U := by positivity
  cases neg <;> simp [F64.units, abs_of_nonneg h]

/-- Comparing the counts of units is comparing the numbers. -/
theorem F64.signedUnits_lt_iff (n₁ : Bool) (m₁ q₁ : Nat) (n₂ : Bool) (m₂ q₂ : Nat) :
    F64.signedUnits n₁ m₁ q₁ < F64.signedUnits n₂ m₂ q₂ ↔ (F64.fin n₁ m₁ q₁).value < (F64.fin n₂ m₂ q₂).value := by
  have hpos : (0 : ℚ) < 2 ^ 1074 := pow_pos two_pos 1074
  rw [← Int.cast_lt (R := ℚ), F64.signedUnits_eq, F64.signedUnits_eq]
  generalize (2 : ℚ) ^ 1074 = U at hpos ⊢
  exact mul_lt_mul_iff_left₀ hpos

end Sys2Proof.Machine
end

