-- ==== Sys2Proof/Laws/Step.lean ====
section
/-! SUPPORT. What a turn can be, what a step can do, and the shared conditionals of the meanings, said once. -/

namespace Sys2Proof.Machine

/-! ## The shared conditionals -/

theorem inInit_of_init {s : State} (h : s.driver = .init) (f : State → State) : inInit s f = f s := if_pos h

theorem inInit_of_not_init {s : State} (h : s.driver ≠ .init) (f : State → State) : inInit s f = raiseCmdError s :=
  if_neg h

theorem whenAccepted_running {s : State} (h : s.driver = .running) (f : State → State) : whenAccepted s f = f s :=
  if_pos h

theorem whenAccepted_held {s : State} (h : s.driver ≠ .running) (f : State → State) : whenAccepted s f = s := if_neg h

/-- A command word by its value: the three legal words and the rest (43_driver.md R191). -/
theorem runCommand_cases (w : Word) (s : State) :
    (w = 0#32 ∧ runCommand w s = s) ∨ (w = 1#32 ∧ runCommand w s = commandInit s) ∨
    (w = 2#32 ∧ runCommand w s = commandStart s) ∨
    (w ≠ 0#32 ∧ w ≠ 1#32 ∧ w ≠ 2#32 ∧ runCommand w s = raiseCmdError s) := by
  by_cases h0 : w = 0#32
  · subst h0; exact .inl ⟨rfl, rfl⟩
  by_cases h1 : w = 1#32
  · subst h1; exact .inr (.inl ⟨rfl, rfl⟩)
  by_cases h2 : w = 2#32
  · subst h2; exact .inr (.inr (.inl ⟨rfl, rfl⟩))
  refine .inr (.inr (.inr ⟨h0, h1, h2, if_pos ?_⟩))
  by_contra hc
  simp only [not_or, not_not, not_lt] at hc
  obtain ⟨hr, ho⟩ := hc
  have hr' := congrArg BitVec.toNat hr
  simp only [BitVec.extractLsb'_toNat, BitVec.toNat_ofNat, Nat.shiftRight_eq_div_pow] at hr' ho
  have hw := w.isLt
  have h : w.toNat = 0 ∨ w.toNat = 1 ∨ w.toNat = 2 := by omega
  rcases h with h | h | h
  · exact h0 (BitVec.eq_of_toNat_eq h)
  · exact h1 (BitVec.eq_of_toNat_eq h)
  · exact h2 (BitVec.eq_of_toNat_eq h)

/-- The commands leave the wires alone. -/
@[simp] theorem runCommand_wires (w : Word) (s : State) : (runCommand w s).wires = s.wires := by
  rcases runCommand_cases w s with ⟨-, h⟩ | ⟨-, h⟩ | ⟨-, h⟩ | ⟨-, -, -, h⟩ <;> rw [h]
  · unfold commandInit; split <;> rfl
  · unfold commandStart; split
    · rfl
    · split
      · rfl
      · split <;> rfl
  · rfl

/-! ## What is fetched -/

/-- What a bus access decodes to is the write or the read of the register its address selects. -/
theorem decodeBus_cases (a : BusAccess) :
    decodeBus a = writeInstr (selectRegister a.addr) a.wdata ∨ decodeBus a = readInstr (selectRegister a.addr) := by
  unfold decodeBus; split
  · exact .inl rfl
  · exact .inr rfl

/-- What a beat decodes to. -/
theorem decodeBeat_cases (b : Beat) :
    decodeBeat b = .beatNull ∨ decodeBeat b = .beatByte b.data ∨ decodeBeat b = .beatByteLast b.data ∨
      decodeBeat b = .beatEos := by
  unfold decodeBeat; split <;> simp

/-- The next turn: nobody's, the bus master's with or without an access, the stream's with or without a beat, or a
reset. -/
theorem nextTurn_cases (s : State) :
    (s.sched = [] ∧ nextTurn s = .quiet s) ∨
    (∃ rest, s.sched = .bus :: rest ∧ s.busQueue = [] ∧ nextTurn s = .quiet { s with sched := rest }) ∨
    (∃ rest a more, s.sched = .bus :: rest ∧ s.busQueue = a :: more ∧
      nextTurn s = .run (decodeBus a) { s with sched := rest, busQueue := more }) ∨
    (∃ rest, s.sched = .stream :: rest ∧ s.beats = [] ∧ nextTurn s = .quiet { s with sched := rest }) ∨
    (∃ rest b more, s.sched = .stream :: rest ∧ s.beats = b :: more ∧
      nextTurn s = .run (decodeBeat b) { s with sched := rest, beats := offeredAfter s b more }) ∨
    (∃ rest, s.sched = .reset :: rest ∧ nextTurn s = .quiet (resetEvent { s with sched := rest })) := by
  rcases hs : s.sched with _ | ⟨a, rest⟩
  · exact .inl ⟨rfl, by simp only [nextTurn, hs]⟩
  · cases a with
    | bus =>
      rcases hb : s.busQueue with _ | ⟨a, more⟩
      · exact .inr (.inl ⟨rest, rfl, rfl, by simp only [nextTurn, hs, busTurn, hb]⟩)
      · exact .inr (.inr (.inl ⟨rest, a, more, rfl, rfl, by simp only [nextTurn, hs, busTurn, hb]⟩))
    | stream =>
      rcases hb : s.beats with _ | ⟨b, more⟩
      · exact .inr (.inr (.inr (.inl ⟨rest, rfl, rfl, by simp only [nextTurn, hs, streamTurn, hb]⟩)))
      · exact .inr (.inr (.inr (.inr (.inl ⟨rest, b, more, rfl, rfl, by
          simp only [nextTurn, hs, streamTurn, hb, offeredAfter]⟩))))
    | reset => exact .inr (.inr (.inr (.inr (.inr ⟨rest, rfl, by simp only [nextTurn, hs]⟩))))

/-- What a step that answers a next state has done: nothing but pass a turn, one reset, one bus access, or one beat. -/
theorem step_cases {s t : State} (h : step s = .next t) :
    (∃ sched, t = { s with sched := sched }) ∨
    (∃ rest, t = resetEvent { s with sched := rest }) ∨
    (∃ rest a more, s.busQueue = a :: more ∧
      exec (decodeBus a) { s with sched := rest, busQueue := more } = .next t) ∨
    (∃ rest b more, s.beats = b :: more ∧
      exec (decodeBeat b) { s with sched := rest, beats := offeredAfter s b more } = .next t) := by
  unfold step at h
  rcases nextTurn_cases s with ⟨hs, hn⟩ | ⟨rest, hs, hb, hn⟩ | ⟨rest, a, more, hs, hb, hn⟩ | ⟨rest, hs, hb, hn⟩ |
    ⟨rest, b, more, hs, hb, hn⟩ | ⟨rest, hs, hn⟩ <;> rw [hn] at h
  · cases h; exact .inl ⟨s.sched, rfl⟩
  · cases h; exact .inl ⟨rest, rfl⟩
  · exact .inr (.inr (.inl ⟨rest, a, more, hb, h⟩))
  · cases h; exact .inl ⟨rest, rfl⟩
  · exact .inr (.inr (.inr ⟨rest, b, more, hb, h⟩))
  · cases h; exact .inr (.inl ⟨rest, rfl⟩)

end Sys2Proof.Machine
end

