-- ==== Sys2Proof/Tests/Slice0.lean ====
section
/-! SUPPORT. Small tests of the model. Expected results are hand calculations from the rules, or the vectors of
95_test_vectors.md, whose number each test names. -/

namespace Sys2Proof.Tests

open Sys2Proof.Machine

/-! ## Ill-formed terms -/

/-- A legal command word is no CMD_ILLEGAL (30_encoding.md R82). -/
theorem test_wellFormed_refuses_legal_word :
    (Instr.cmdIllegal 2#32).wellFormed = false ∧ (Instr.cmdIllegal 0#32).wellFormed = false ∧
    (Instr.cmdIllegal 3#32).wellFormed = true := by decide

/-- There are 6400 pixels (10_state.md R26). -/
theorem test_wellFormed_refuses_pixel_6400 :
    (Instr.calib 1#16 6400#13).wellFormed = false ∧ (Instr.calib 1#16 6399#13).wellFormed = true := by decide

/-! ## Decoding: words written out from 30_encoding.md R81 to R83, `wdata` above the key byte -/
theorem test_decode_WR_ID : decodeTableWord 40 0x8000000140 = some (.wrId 0x80000001#32) := by decide
theorem test_decode_WR_CMD : decodeTableWord 40 0x8000010144 = some (.wrCmd 0x80000101#32) := by decide
theorem test_decode_WR_STATUS : decodeTableWord 40 0x8000020148 = some (.wrStatus 0x80000201#32) := by decide
theorem test_decode_WR_CONFIG : decodeTableWord 40 0x800003014C = some (.wrConfig 0x80000301#32) := by decide
theorem test_decode_WR_CAP_LO : decodeTableWord 40 0x8000040150 = some (.wrCapLo 0x80000401#32) := by decide
theorem test_decode_WR_CAP_HI : decodeTableWord 40 0x8000050154 = some (.wrCapHi 0x80000501#32) := by decide
theorem test_decode_WR_FRAMES_LO : decodeTableWord 40 0x8000060158 = some (.wrFramesLo 0x80000601#32) := by decide
theorem test_decode_WR_FRAMES_HI : decodeTableWord 40 0x800007015C = some (.wrFramesHi 0x80000701#32) := by decide
theorem test_decode_WR_FILL : decodeTableWord 40 0x8000080160 = some (.wrFill 0x80000801#32) := by decide
theorem test_decode_WR_COEF_SEL : decodeTableWord 40 0x8000090164 = some (.wrCoefSel 0x80000901#32) := by decide
theorem test_decode_WR_COEF_LO : decodeTableWord 40 0x80000A0168 = some (.wrCoefLo 0x80000A01#32) := by decide
theorem test_decode_WR_COEF_HI : decodeTableWord 40 0x80000B016C = some (.wrCoefHi 0x80000B01#32) := by decide
theorem test_decode_WR_COEF_STAT : decodeTableWord 40 0x80000C0170 = some (.wrCoefStat 0x80000C01#32) := by decide
theorem test_decode_WR_RD_CTRL : decodeTableWord 40 0x80000D0174 = some (.wrRdCtrl 0x80000D01#32) := by decide
theorem test_decode_WR_RD_LO : decodeTableWord 40 0x80000E0178 = some (.wrRdLo 0x80000E01#32) := by decide
theorem test_decode_WR_RD_HI : decodeTableWord 40 0x80000F017C = some (.wrRdHi 0x80000F01#32) := by decide
theorem test_decode_RD_ID : decodeTableWord 8 0x00 = some .rdId := by decide
theorem test_decode_RD_CMD : decodeTableWord 8 0x04 = some .rdCmd := by decide
theorem test_decode_RD_STATUS : decodeTableWord 8 0x08 = some .rdStatus := by decide
theorem test_decode_RD_CONFIG : decodeTableWord 8 0x0C = some .rdConfig := by decide
theorem test_decode_RD_CAP_LO : decodeTableWord 8 0x10 = some .rdCapLo := by decide
theorem test_decode_RD_CAP_HI : decodeTableWord 8 0x14 = some .rdCapHi := by decide
theorem test_decode_RD_FRAMES_LO : decodeTableWord 8 0x18 = some .rdFramesLo := by decide
theorem test_decode_RD_FRAMES_HI : decodeTableWord 8 0x1C = some .rdFramesHi := by decide
theorem test_decode_RD_FILL : decodeTableWord 8 0x20 = some .rdFill := by decide
theorem test_decode_RD_COEF_SEL : decodeTableWord 8 0x24 = some .rdCoefSel := by decide
theorem test_decode_RD_COEF_LO : decodeTableWord 8 0x28 = some .rdCoefLo := by decide
theorem test_decode_RD_COEF_HI : decodeTableWord 8 0x2C = some .rdCoefHi := by decide
theorem test_decode_RD_COEF_STAT : decodeTableWord 8 0x30 = some .rdCoefStat := by decide
theorem test_decode_RD_RD_CTRL : decodeTableWord 8 0x34 = some .rdRdCtrl := by decide
theorem test_decode_RD_RD_LO : decodeTableWord 8 0x38 = some .rdRdLo := by decide
theorem test_decode_RD_RD_HI : decodeTableWord 8 0x3C = some .rdRdHi := by decide
theorem test_decode_CMD_NOP : decodeTableWord 32 0x00000000 = some .cmdNop := by decide
theorem test_decode_CMD_INIT : decodeTableWord 32 0x00000001 = some .cmdInit := by decide
theorem test_decode_CMD_START : decodeTableWord 32 0x00000002 = some .cmdStart := by decide

/-- K2, K3, and a word with bit 31 set. -/
theorem test_decode_CMD_ILLEGAL :
    decodeTableWord 32 0x3 = some (.cmdIllegal 0x3#32) ∧ decodeTableWord 32 0x10 = some (.cmdIllegal 0x10#32) ∧
    decodeTableWord 32 0x80000002 = some (.cmdIllegal 0x80000002#32) := by decide

/-- A beat with `keep = 0` ignores its data (30_encoding.md R83). -/
theorem test_decode_BEAT_NULL : decodeTableWord 16 0x000 = some .beatNull ∧ decodeTableWord 16 0x0AB = some .beatNull := by
  decide
theorem test_decode_BEAT_BYTE : decodeTableWord 16 0x2AB = some (.beatByte 0xAB#8) := by decide
theorem test_decode_BEAT_BYTE_LAST : decodeTableWord 16 0x3AB = some (.beatByteLast 0xAB#8) := by decide
theorem test_decode_BEAT_EOS : decodeTableWord 16 0x100 = some .beatEos ∧ decodeTableWord 16 0x1FF = some .beatEos := by
  decide

/-- G17: offset 0x0B is STATUS too; and a byte list that is no packed word is rejected by name. -/
theorem test_decode_low_address_bits : decodeTableWord 8 0x0B = some .rdStatus := by decide
theorem test_decode_rejects :
    decodeBytes .bus [0x44#8, 1#8] = .error .truncated ∧ decodeBytes .bus [0x84#8] = .error .keyBitSeven ∧
    decodeBytes .beat [0xAB#8, 0x04#8] = .error .beatBitsAboveNine ∧ decodeBytes .cmd [2#8] = .error .truncated := by
  decide

/-! ## Small states -/

/-- The state after reset. -/
abbrev s0 : State := State.reset

/-- INIT with a complete table of free values. -/
def ready : State :=
  { s0 with cnt := { slope := 6400, intercept := 6400, threshold := 6400 } }

def running : State := { ready with driver := .running }

def stoppedByCap : State := { ready with driver := .stopped, stopCause := .cap }

/-- What `f` sees of the next state, if there is one. -/
def after {α : Type} (o : Host.Outcome State Fault Refusal) (f : State → α) : Option α :=
  match o with
  | .next t => some (f t)
  | .fault _ => none
  | .refused _ => none

/-- STATUS of the next state. -/
def statusAfter (i : Instr) (s : State) : Option Word := after (exec i s) statusWord

/-- What a read returns. -/
def readOf (i : Instr) (s : State) : Option Word := after (exec i s) State.rdata

/-! ## Bus writes -/
/-- G16, for every read-only register. -/
theorem test_WR_ID : statusAfter (.wrId 0#32) s0 = some 0x20#32 := by decide
theorem test_WR_STATUS : statusAfter (.wrStatus 0#32) s0 = some 0x20#32 := by decide
theorem test_WR_FRAMES_LO : statusAfter (.wrFramesLo 0#32) s0 = some 0x20#32 := by decide
theorem test_WR_FRAMES_HI : statusAfter (.wrFramesHi 0#32) s0 = some 0x20#32 := by decide
theorem test_WR_FILL : statusAfter (.wrFill 0#32) s0 = some 0x20#32 := by decide
theorem test_WR_COEF_STAT : statusAfter (.wrCoefStat 0#32) s0 = some 0x20#32 := by decide
theorem test_WR_RD_LO : statusAfter (.wrRdLo 0#32) s0 = some 0x20#32 := by decide
theorem test_WR_RD_HI : statusAfter (.wrRdHi 0#32) s0 = some 0x20#32 := by decide

/-- K1 and K6: an illegal word, and START with the table loaded, as words written to CMD. -/
theorem test_WR_CMD_illegal : statusAfter (.wrCmd 0x12#32) s0 = some 0x20#32 := by decide
theorem test_WR_CMD_start : statusAfter (.wrCmd 2#32) ready = some 0x401#32 := by decide

/-- G5, and the write refused while RUNNING. -/
theorem test_WR_CONFIG : after (exec (.wrConfig 0xFFFFFFFF#32) s0) State.capEn = some true := by decide
theorem test_WR_CONFIG_running :
    after (exec (.wrConfig 1#32) running) (fun t => (t.capEn, statusWord t)) = some (false, 0x421#32) := by decide

/-- G6, and each half kept while the other is written. -/
theorem test_WR_CAP_LO :
    after (exec (.wrCapLo 7#32) { s0 with cap := 0x1111111122222222#64 }) State.cap = some 0x1111111100000007#64 := by decide
theorem test_WR_CAP_LO_running :
    after (exec (.wrCapLo 7#32) running) (fun t => (t.cap, statusWord t)) = some (0#64, 0x421#32) := by decide
theorem test_WR_CAP_HI :
    after (exec (.wrCapHi 7#32) { s0 with cap := 0x1111111122222222#64 }) State.cap = some 0x0000000722222222#64 := by decide

/-- V1 on a grid with a count, and V2. -/
theorem test_WR_COEF_SEL :
    after (exec (.wrCoefSel 1#32) ready) (fun t => (t.coefSel, t.cnt, statusWord t)) =
      some (.intercept, { slope := 6400, intercept := 0, threshold := 6400 }, 0#32) := by decide
theorem test_WR_COEF_SEL_illegal :
    after (exec (.wrCoefSel 3#32) ready) (fun t => (t.coefSel, t.cnt, t.cmdErr)) = some (.slope, ready.cnt, true) := by decide

/-- 41_calibration.md R134, and V10. -/
theorem test_WR_COEF_LO : after (exec (.wrCoefLo 5#32) s0) State.coefLoHold = some 5#32 := by decide
theorem test_WR_COEF_LO_running :
    after (exec (.wrCoefLo 5#32) running) (fun t => (t.coefLoHold, statusWord t)) = some (0#32, 0x421#32) := by decide

/-- V4 and V11: the second value of a grid goes to spatial index 20 with the low word held; V7: a 6401st is discarded. -/
theorem test_WR_COEF_HI :
    after (exec (.wrCoefHi 0x3FF00000#32) { s0 with cnt := { s0.cnt with slope := 1 }, coefLoHold := 9#32 })
      (fun t => (t.coef.slope, t.cnt.slope)) = some ([(20, 0x3FF0000000000009#64)], 2) := by decide
theorem test_WR_COEF_HI_overflow :
    after (exec (.wrCoefHi 5#32) ready) (fun t => (t.coef.slope, coefStatWord t, coefReady t)) =
      some ([], 0x3900#32, false) := by decide

/-- G10 and G11 with G15: a legal selection latches the bin; an index past the array latches 0. -/
theorem test_WR_RD_CTRL :
    after (exec (.wrRdCtrl 0x0001000C#32) { s0 with rawhist := [(12, 77#64)] }) (fun t => (t.rdBuf, t.cmdErr)) =
      some (77#64, false) := by decide
theorem test_WR_RD_CTRL_illegal :
    after (exec (.wrRdCtrl 0xFFFF0005#32) { s0 with rdBuf := 3#64 }) (fun t => (t.rdBuf, t.cmdErr, rdCtrlWord t)) =
      some (0#64, true, 0x00070005#32) := by decide

/-! ## Bus reads -/

/-- G1 and G2. -/
theorem test_RD_ID : readOf .rdId s0 = some 0x48585401#32 := by decide
theorem test_RD_CMD : readOf .rdCmd { s0 with rdata := 7#32 } = some 0#32 := by decide
theorem test_RD_COEF_LO : readOf .rdCoefLo { s0 with coefLoHold := 7#32 } = some 0#32 := by decide
theorem test_RD_COEF_HI : readOf .rdCoefHi { s0 with coefLoHold := 7#32 } = some 0#32 := by decide

/-- 95_test_vectors.md 2.9: STOPPED by CAP then an illegal command; RUNNING in a `THRESH_SUB` build, big-endian. -/
theorem test_RD_STATUS : readOf .rdStatus { stoppedByCap with cmdErr := true } = some 0x42A#32 := by decide
theorem test_RD_STATUS_build :
    readOf .rdStatus { running with build := { Build.spec with threshSub := true, byteOrder := .be }, sumOvf := true } =
      some 0x1C81#32 := by decide
theorem test_RD_CONFIG : readOf .rdConfig { s0 with capEn := true } = some 1#32 := by decide
theorem test_RD_CAP_LO : readOf .rdCapLo { s0 with cap := 0xAAAAAAAABBBBBBBB#64 } = some 0xBBBBBBBB#32 := by decide
theorem test_RD_CAP_HI : readOf .rdCapHi { s0 with cap := 0xAAAAAAAABBBBBBBB#64 } = some 0xAAAAAAAA#32 := by decide

/-- G7 and G8. -/
theorem test_RD_FRAMES_LO :
    after (exec .rdFramesLo { s0 with frames := 0x0000000100000003#64 }) (fun t => (t.rdata, t.framesLatchHi)) =
      some (3#32, 1#32) := by decide
theorem test_RD_FRAMES_HI :
    readOf .rdFramesHi { s0 with frames := 0x0000000200000000#64, framesLatchHi := 1#32 } = some 1#32 := by decide
theorem test_RD_FILL : readOf .rdFill { running with fill := 12799 } = some 12799#32 := by decide
theorem test_RD_COEF_SEL : readOf .rdCoefSel { s0 with coefSel := .threshold } = some 2#32 := by decide

/-- G18 and V7. -/
theorem test_RD_COEF_STAT : readOf .rdCoefStat { ready with coefSel := .threshold } = some 0x1900#32 := by decide
theorem test_RD_COEF_STAT_overflow :
    readOf .rdCoefStat { ready with ovf := { ready.ovf with slope := true } } = some 0x3900#32 := by decide
theorem test_RD_RD_CTRL : readOf .rdRdCtrl { s0 with rdSel := 2#3, rdIdx := 1000#14 } = some 0x000203E8#32 := by decide
theorem test_RD_RD_LO : readOf .rdRdLo { s0 with rdBuf := 0x4035000000000001#64 } = some 1#32 := by decide
theorem test_RD_RD_HI : readOf .rdRdHi { s0 with rdBuf := 0x4035000000000001#64 } = some 0x40350000#32 := by decide

/-! ## Commands -/

/-- K4. -/
theorem test_CMD_NOP : after (exec .cmdNop running) id = some running := by decide

/-- K10 and K7. -/
theorem test_CMD_INIT :
    after (exec .cmdInit { stoppedByCap with frames := 3#64, sum := [(20, 5#64)], rhOvf := true, rdBuf := 9#64 })
      (fun t => (t.frames, t.sum, statusWord t, t.rdBuf)) = some (0#64, [], 0x400#32, 9#64) := by decide
theorem test_CMD_INIT_running : statusAfter .cmdInit running = some 0x421#32 := by decide

/-- K5 and K11. -/
theorem test_CMD_START_table_short : statusAfter .cmdStart s0 = some 0x10#32 := by decide
theorem test_CMD_START_cap_zero : statusAfter .cmdStart { ready with capEn := true } = some 0x40A#32 := by decide

/-- K2, in STOPPED. -/
theorem test_CMD_ILLEGAL : statusAfter (.cmdIllegal 3#32) stoppedByCap = some 0x42A#32 := by decide

/-! ## Beats -/

/-- B1. -/
theorem test_BEAT_NULL : after (exec .beatNull { running with fill := 5 }) State.fill = some 5 := by decide

/-- B2 and B9. -/
theorem test_BEAT_BYTE :
    after (exec (.beatByte 0xAB#8) running) (fun t => (t.fbuf, t.fill)) = some ([(0, 0xAB#8)], 1) := by decide
theorem test_BEAT_BYTE_held : after (exec (.beatByte 0xAB#8) stoppedByCap) id = some stoppedByCap := by decide

/-- B6. -/
theorem test_BEAT_BYTE_LAST :
    after (exec (.beatByteLast 0xAB#8) { running with fill := 6399, frames := 3#64 })
      (fun t => (t.fill, t.frames, statusWord t)) = some (0, 3#64, 0x406#32) := by decide

/-- B8. -/
theorem test_BEAT_EOS :
    after (exec .beatEos { running with fill := 1 }) (fun t => (t.fill, statusWord t)) = some (0, 0x406#32) := by decide

/-! ## The frame operations -/

/-- 95_test_vectors.md 2.1. -/
theorem test_P : [0, 1, 2, 3, 4, 5, 7, 79, 80, 81, 83, 84, 91, 159, 3200, 6396, 6399].map P =
    [0, 20, 40, 60, 1, 21, 61, 79, 80, 100, 140, 81, 142, 159, 3200, 6339, 6399] := by decide
theorem test_Q : [0, 1, 19, 20, 21, 40, 60, 79, 142, 6320, 6339, 6399].map Q =
    [0, 4, 76, 1, 5, 2, 3, 79, 91, 6320, 6396, 6399] := by decide

/-- B11 and B12. -/
theorem test_sample_order :
    sample { s0 with fbuf := [(0, 1#8), (1, 2#8)] } 0 = 0x0201#16 ∧
    sample { s0 with fbuf := [(0, 1#8), (1, 2#8)], build := { Build.spec with byteOrder := .be } } 0 = 0x0102#16 := by decide

/-- S1: raw index 91 goes to spatial index 142. -/
theorem test_REORDER :
    ∃ t, exec .reorder { s0 with fbuf := [(182, 0x34#8), (183, 0x12#8)] } = .next t ∧ spatialAt t 142 = 0x1234#16 :=
  ⟨_, rfl, spatialAt_reorderRecord _ (k := 91) (by decide)⟩

/-- One pixel with a slope and an intercept, the others free. -/
def pixel0 (sl ic : DWord) : State := { s0 with coef := { slope := [(0, sl)], intercept := [(0, ic)], threshold := [] } }

/-- C21, whose product is inexact, and the pixel that does not exist. -/
theorem test_CALIB :
    after (exec (.calib 3#16 0#13) (pixel0 0x3FB999999999999A#64 0#64)) (fun t => calibratedAt t 0) =
      some (fromBits64 0x3FD3333333333334#64) := by decide +kernel
theorem test_CALIB_no_such_pixel : exec (.calib 3#16 6400#13) s0 = .fault .noSuchPixel := rfl

/-- C4, C19, C25, and the note on `THRESH_SUB`, as values of CALIB. -/
theorem test_CALIB_values :
    calibValue (pixel0 0x3FB999999999999A#64 0#64) 999#16 0 = fromBits64 0x4058F9999999999A#64 ∧
    calibValue (pixel0 0x7FF0000000000000#64 0#64) 0#16 0 = .nan ∧
    calibValue (pixel0 0x3F589374BC6A7EFA#64 0#64) 65535#16 0 = fromBits64 0x4058935C28F5C290#64 ∧
    calibValue { s0 with
      build := { Build.spec with threshSub := true }
      coef := { slope := [(0, 0x3FE0000000000000#64)], intercept := [(0, 0x3FF0000000000000#64)],
                threshold := [(0, 0x4000000000000000#64)] } } 10#16 0 = fromBits64 0x4014000000000000#64 := by decide +kernel

/-- C6, C8 to C18 and C26 to C29: the bin of a calibrated value. -/
theorem test_calBin_kept :
    calBin (fromBits64 0x01A56E1FC2F8F359#64) = some 0 ∧ calBin (fromBits64 1#64) = some 0 ∧
    calBin (fromBits64 0x4058FFFFFFFFFFFF#64) = some 999 ∧ calBin (fromBits64 0x3FECCCCCCCCCCCCC#64) = some 9 ∧
    calBin (fromBits64 0x3FFCCCCCCCCCCCCC#64) = some 18 ∧ calBin (fromBits64 0x400CCCCCCCCCCCCC#64) = some 36 ∧
    calBin (fromBits64 0x400D999999999999#64) = some 37 := by decide +kernel
theorem test_calBin_dropped :
    calBin (fromBits64 0#64) = none ∧ calBin (fromBits64 0x40EFFFE000000000#64) = none ∧
    calBin (fromBits64 0x40C387F333333333#64) = none ∧ calBin (fromBits64 0x40C3880000000000#64) = none ∧
    calBin (fromBits64 0x4059000000000000#64) = none ∧ calBin (fromBits64 0x7FF8000000000000#64) = none ∧
    calBin (fromBits64 0x7FF0000000000000#64) = none ∧ calBin (fromBits64 0xFFF0000000000000#64) = none ∧
    calBin (fromBits64 0x8000000000000000#64) = none := by decide +kernel

/-- A1: `sum[20] = 5` and `x_1 = 7` give 12. -/
theorem test_INGEST_SPATIAL :
    ∃ t, exec .ingestSpatial { s0 with sum := [(20, 5#64)], wires := { spatial := [(20, 7#16)], calibrated := [] } } =
      .next t ∧ (sumAt t 20).toNat = 12 :=
  ⟨_, rfl, sumAt_ingestSpatialFrame (k := 1) (by decide) (by decide) (by decide)⟩

/-- H5: a 32-bit bin at its largest value wraps to 0. -/
theorem test_bin_wraps : bumpCell 32 0xFFFFFFFF#64 1 = (0#64, true) := by decide

/-- A record whose samples are all 100, little-endian (95_test_vectors.md, `FRAME 100`). -/
@[irreducible] def record100 : CellList Byte := (List.range 12800).map fun j => (j, if j % 2 = 0 then 100#8 else 0#8)

/-- 0.1 at every pixel, and 0.0 (95_test_vectors.md P2). -/
@[irreducible] def constGrid (w : DWord) : CellList DWord := (List.range 6400).map fun p => (p, w)

def commitReady : State :=
  { running with
    fbuf := record100
    coef := { slope := constGrid 0x3FB999999999999A#64, intercept := constGrid 0#64, threshold := constGrid 0#64 } }

theorem find_record100 {j : Nat} (hj : j < 12800) :
    Cells.find record100 j = some (if j % 2 = 0 then 100#8 else 0#8) := by
  unfold record100; exact Cells.find_full 12800 (fun j => if j % 2 = 0 then 100#8 else 0#8) hj

theorem sample_record100 (s : State) (hb : s.build.byteOrder = .le) (hf : s.fbuf = record100) {k : Nat} (hk : k < 6400) :
    sample s k = 100#16 := by
  have h : ∀ j, j < 12800 → fbufAt s j = if j % 2 = 0 then 100#8 else 0#8 := by
    intro j hj
    rw [fbufAt, hf, Cells.get, find_record100 hj, Option.getD_some]
  rw [sample, h _ (by omega), h _ (by omega), hb, if_pos (by omega), if_neg (by omega)]
  rfl

theorem count_all {p : Nat → Bool} (h : ∀ k, k < 6400 → p k = true) : rawIndices.countP p = 6400 := by
  rw [List.countP_eq_length.mpr fun k hk => h k (mem_rawIndices.mp hk), rawIndices_length]

/-- A commit-ready state with counts already in bin 12. -/
def commitReady12 : State := { commitReady with rawhist := [(12, 6400#64)] }

/-- H2: a frame of 6400 samples 100 adds 6400 to bin 12. -/
theorem test_INGEST_RAW_HIST :
    ∃ t, exec .ingestRawHist commitReady12 = .next t ∧ (rawhistAt t 12).toNat = 12800 := by
  have hc : rawBinCount commitReady12 12 = 6400 :=
    count_all fun k hk => by rw [sample_record100 commitReady12 rfl rfl hk]; rfl
  refine ⟨_, rfl, ?_⟩
  rw [rawhistAt_ingestRawHistogram (by decide) (by decide) (by rw [hc]; decide), hc]
  rfl

theorem find_constGrid (w : DWord) {p : Nat} (hp : p < 6400) : Cells.find (constGrid w) p = some w := by
  unfold constGrid; exact Cells.find_full 6400 _ hp

/-- APPLY_CALIBRATION of a frame of 100 with slope 0.1: 10.0 at every pixel (P2). -/
theorem calibValue_slope01 {s : State} (hb : s.build.threshSub = false) (hc : s.coef = commitReady.coef) {p : Nat}
    (hp : p < 6400) : calibValue s 100#16 p = fromBits64 0x4024000000000000#64 := by
  have hs : coefAt s .slope p = 0x3FB999999999999A#64 := by
    rw [coefAt, Cells.get, hc, show gridGet commitReady.coef .slope = constGrid 0x3FB999999999999A#64 from rfl,
      find_constGrid _ hp, Option.getD_some]
  have hi : coefAt s .intercept p = 0#64 := by
    rw [coefAt, Cells.get, hc, show gridGet commitReady.coef .intercept = constGrid 0#64 from rfl,
      find_constGrid _ hp, Option.getD_some]
  simp only [calibValue, hs, hi, hb, Bool.false_eq_true, if_false]
  decide +kernel

theorem calibValue_commitReady {p : Nat} (hp : p < 6400) :
    calibValue commitReady 100#16 p = fromBits64 0x4024000000000000#64 := calibValue_slope01 rfl rfl hp

theorem test_APPLY_CALIBRATION :
    ∃ t, exec .applyCalibration (reorderRecord commitReady) = .next t ∧
      calibratedAt t 20 = fromBits64 0x4024000000000000#64 := by
  refine ⟨_, rfl, ?_⟩
  have h := calibratedAt_applyCalibrationFrame (reorderRecord commitReady) (k := 1) (by decide)
  rw [spatialAt_reorderRecord _ (by decide), sample_record100 commitReady rfl rfl (by decide),
    calibValue_congr (s := commitReady) (by simp) (by simp) (by simp), calibValue_commitReady (by decide)] at h
  exact h

/-- P2's bin: 6400 values 10.0 go to bin 100. -/
theorem test_INGEST_CAL_HIST :
    ∃ t, exec .ingestCalHist (calibratedRecord commitReady) = .next t ∧ (calhistAt t 100).toNat = 6400 := by
  have hc : calBinCount (calibratedRecord commitReady) 100 = 6400 := by
    rw [calBinCount_calibratedRecord]
    refine count_all fun k hk => ?_
    rw [sample_record100 commitReady rfl rfl hk, calibValue_commitReady (P_lt hk)]
    decide +kernel
  have hcan : Cells.Canonical 0#64 1000 (calibratedRecord commitReady).calhist := by
    rw [show (calibratedRecord commitReady).calhist = [] by unfold calibratedRecord; simp; rfl]; decide
  have hb : (calibratedRecord commitReady).build = Build.spec := by unfold calibratedRecord; simp; rfl
  refine ⟨_, rfl, ?_⟩
  rw [calhistAt_ingestCalHistogram (by rw [hb]; decide) hcan (by rw [hc]; decide), hc, hb, calhistAt,
    show (calibratedRecord commitReady).calhist = [] by unfold calibratedRecord; simp; rfl]
  decide

/-- P2, the second record: the commit counts the frame, adds it, and the cap stops the block. -/
theorem test_FRAME_COMMIT :
    ∃ t, exec .frameCommit { commitReady with capEn := true, cap := 2#64, frames := 1#64 } = .next t ∧
      t.frames = 2#64 ∧ t.driver = .stopped ∧ t.stopCause = .cap := by
  refine ⟨_, rfl, ?_, ?_, ?_⟩
  · rw [commitFrame_writes]; rfl
  · rw [commitFrame_driver]; rfl
  · rw [commitFrame_stopCause]; rfl
theorem test_FRAME_COMMIT_sum :
    ∃ t, exec .frameCommit commitReady = .next t ∧ (sumAt t 6399).toNat = 100 := by
  refine ⟨_, rfl, ?_⟩
  rw [sumAt, commitFrame_sum]
  refine (sumAt_ingestSpatialFrame (s := reorderRecord commitReady) (k := 6399) (by simp; decide) ?_ (by decide)).trans ?_
  · rw [show (reorderRecord commitReady).sum = [] by simp; rfl]; decide
  · rw [spatialAt_reorderRecord _ (by decide), sample_record100 commitReady rfl rfl (by decide), sumAt,
      show (reorderRecord commitReady).sum = [] by simp; rfl, show (reorderRecord commitReady).build = Build.spec by simp; rfl]
    rfl

/-! ## The step -/

/-- A row's word, placed, is what the next step runs. -/
theorem test_step_bus : after (step (s0.withFetchWord 8 0x00)) State.rdata = some 0x48585401#32 := by decide
theorem test_step_cmd : after (step (ready.withFetchWord 32 0x2)) statusWord = some 0x401#32 := by decide
theorem test_step_beat : after (step (running.withFetchWord 16 0x2AB)) (fun t => (t.fbuf, t.beats)) = some ([(0, 0xAB#8)], []) := by
  decide

/-- B9: outside RUNNING the beat stays offered. -/
theorem test_step_held : after (step (s0.withFetchWord 16 0x2AB)) (fun t => (t.fill, t.beats.length)) = some (0, 1) := by decide

/-- A reset in the middle of a run (70_reset_and_hazards.md R260). -/
theorem test_step_reset :
    after (step { running with fill := 7, frames := 2#64, sched := [.reset] }) (fun t => (t.driver, t.fill, t.frames)) =
      some (.init, 0, 0#64) := by decide

/-! ## Witnesses: for each statement with hypotheses, a state and operands that meet them, one for each clause -/

theorem witness_BusDecodeIgnoresLowAddressBits :
    let a : BusAccess := { dir := false, addr := 0x3C#6, wdata := 0#32 }
    let b : BusAccess := { dir := false, addr := 0x3F#6, wdata := 0#32 }
    a ≠ b ∧ a.dir = b.dir ∧ a.wdata = b.wdata ∧ a.addr.toNat / 4 = b.addr.toNat / 4 := by decide

theorem witness_DecodeEncode :
    (Instr.cmdIllegal 3#32).wellFormed = true ∧ encode (.cmdIllegal 3#32) = some (.cmd 3#32) ∧
    (Instr.wrRdHi 0xFFFFFFFF#32).wellFormed = true ∧ encode (.wrRdHi 0xFFFFFFFF#32) = some (.bus 0x7C#7 0xFFFFFFFF#32) ∧
    (Instr.beatByteLast 0xFF#8).wellFormed = true ∧ encode (.beatByteLast 0xFF#8) = some (.beat 0x3FF#10) := by decide

/-- A read with no `wdata`, and a write, which the hypothesis does not constrain. -/
theorem witness_BytesRoundTrip :
    (∀ key wdata, Encoded.bus 0x3C#7 0#32 = .bus key wdata → key.getLsbD 6 = false → wdata = 0#32) ∧
    (∀ key wdata, Encoded.bus 0x44#7 2#32 = .bus key wdata → key.getLsbD 6 = false → wdata = 0#32) := by
  refine ⟨fun key w h _ => ?_, fun key w h hk => ?_⟩
  · injection h with h1 h2; exact h2.symm
  · injection h with h1 h2; subst h1; exact absurd hk (by decide)

/-- One access and one beat queued, the bus first. -/
def twoAgents : State :=
  { running with
    sched := [.bus, .stream]
    busQueue := [{ dir := false, addr := 8#6, wdata := 0#32 }]
    beats := [{ keep := true, last := false, data := 0xAB#8 }] }

theorem witness_StepRunsBusAccess :
    twoAgents.sched = .bus :: [.stream] ∧
    twoAgents.busQueue = { dir := false, addr := 8#6, wdata := 0#32 } :: [] := ⟨rfl, rfl⟩

def streamFirst : State := { twoAgents with sched := [.stream] }

theorem witness_StepRunsAcceptedBeat :
    streamFirst.driver = .running ∧ streamFirst.sched = .stream :: [] ∧
    streamFirst.beats = { keep := true, last := false, data := 0xAB#8 } :: [] := ⟨rfl, rfl, rfl⟩

theorem witness_HeldBeatStaysOffered :
    stoppedByCap.driver ≠ .running ∧ { stoppedByCap with sched := [.stream] }.sched = .stream :: [] ∧
    s0.driver ≠ .running := by decide

theorem witness_BlockNeverMovesAlone :
    running.sched = [] ∧ ({ running with sched := [.bus] }.sched = .bus :: [] ∧ running.busQueue = []) ∧
    ({ running with sched := [.stream] }.sched = .stream :: [] ∧ running.beats = []) := by decide

theorem witness_ResetEventSetsEveryElement : { running with sched := [.reset, .bus] }.sched = .reset :: [.bus] := rfl

theorem witness_ReadOnlyWritesIgnored :
    Instr.wrRdHi 7#32 ∈ [Instr.wrId 7#32, .wrStatus 7#32, .wrFramesLo 7#32, .wrFramesHi 7#32, .wrFill 7#32,
      .wrCoefStat 7#32, .wrRdLo 7#32, .wrRdHi 7#32] := by decide

theorem witness_WriteConfig : s0.driver = .init ∧ running.driver ≠ .init ∧ stoppedByCap.driver ≠ .init := by decide

theorem witness_WriteCapWords : s0.driver = .init ∧ running.driver ≠ .init ∧ stoppedByCap.driver ≠ .init := by decide

/-- At the edges of the selections and of the arrays: `0x00060000` is SEL 6, `0x000103E8` SEL 1 and IDX 1000, `0x000203E8`
SEL 2 and IDX 1000, `0x000203E7` the last bin, `0x000518FF` SEL 5 and IDX 6399. -/
theorem witness_WriteReadbackControl :
    let sel := fun w : Word => w.toNat / 2 ^ 16 % 8
    let idx := fun w : Word => w.toNat % 2 ^ 14
    let len := fun w => [6400, 8192, 1000, 6400, 6400, 6400].getD (sel w) 0
    6 ≤ sel 0x00060000#32 ∧ len 0x000203E8#32 ≤ idx 0x000203E8#32 ∧ len 0x00051900#32 ≤ idx 0x00051900#32 ∧
    (sel 0x000518FF#32 < 6 ∧ idx 0x000518FF#32 < len 0x000518FF#32 ∧ sel 0x000518FF#32 = 5) ∧
    (sel 0x000203E7#32 ≤ 2 ∧ idx 0x000203E7#32 < len 0x000203E7#32 ∧ running.driver = .running) ∧
    (s0.driver ≠ .running ∧ idx 0x000018FF#32 < len 0x000018FF#32 ∧ sel 0x000018FF#32 = 0) ∧
    (idx 0x00011FFF#32 < len 0x00011FFF#32 ∧ sel 0x00011FFF#32 = 1) ∧ sel 0x000203E7#32 = 2 ∧
    (sel 0x000318FF#32 = 3 ∧ idx 0x000318FF#32 < len 0x000318FF#32) ∧
    (sel 0x000418FF#32 = 4 ∧ idx 0x000418FF#32 < len 0x000418FF#32) := by decide

theorem witness_WriteCoefSel :
    (s0.driver = .init ∧ (2#32).toNat % 4 = gridCode .threshold ∧ (0xFFFFFFFC#32).toNat % 4 = gridCode .slope) ∧
    running.driver ≠ .init ∧ (3#32).toNat % 4 = 3 := by decide

theorem witness_WriteCoefLo : s0.driver = .init ∧ running.driver ≠ .init := by decide

/-- The last position of a grid, and one past it. -/
theorem witness_WriteCoefHi :
    let last := { ready with cnt := { ready.cnt with slope := 6399 } }
    (last.driver = .init ∧ gridGet last.cnt last.coefSel < 6400) ∧
    (ready.driver = .init ∧ 6400 ≤ gridGet ready.cnt ready.coefSel) ∧ running.driver ≠ .init := by decide

theorem witness_CommandWordDispatch :
    (0x10#32).toNat / 16 ≠ 0 ∧ 2 < (3#32).toNat % 16 ∧ ((2#32).toNat / 16 = 0 ∧ (2#32).toNat % 16 ≤ 2) := by decide

theorem witness_CommandInit : running.driver = .running ∧ stoppedByCap.driver ≠ .running ∧ s0.driver ≠ .running := by decide

theorem witness_CommandStart :
    stoppedByCap.driver ≠ .init ∧ (s0.driver = .init ∧ gridGet s0.cnt .threshold ≠ 6400) ∧
    (ready.driver = .init ∧ (∀ g, gridGet ready.cnt g = 6400 ∧ gridGet ready.ovf g = false)) ∧
    ({ ready with capEn := true }.capEn = true ∧ ready.cap = 0#64) ∧ ¬ (ready.capEn = true ∧ ready.cap = 0#64) := by
  refine ⟨by decide, by decide, ⟨rfl, fun g => ?_⟩, by decide, by decide⟩
  cases g <;> exact ⟨rfl, rfl⟩

theorem witness_FramesSnapshot :
    (Instr.cmdInit ≠ .rdFramesLo ∧ ∃ t, exec .cmdInit stoppedByCap = .next t) ∧
    (∃ t, step ({ running with frames := 1#64 }.withFetchWord 8 0x18) = .next t) ∧
    ∃ t, step { running with framesLatchHi := 1#32, sched := [.reset] } = .next t :=
  ⟨⟨by decide, _, rfl⟩, ⟨_, rfl⟩, _, rfl⟩

theorem witness_ReadFillAndLoadStatus :
    { running with fill := 12799 }.fill < 12800 ∧ gridGet ready.cnt ready.coefSel ≤ 6400 := by decide

theorem witness_ReadsAreIdempotent : Reg.framesHi ≠ .framesLo := by decide

theorem witness_BeatNullChangesNothing : running.driver = .running := rfl

/-- The byte before the last of a record, and the last. -/
theorem witness_BeatByteStoresOrCommits :
    running.driver = .running ∧ { running with fill := 12798 }.fill ≠ 12799 ∧ { running with fill := 12799 }.fill = 12799 := by
  decide

/-- B5: the last byte of the one frame the cap allows is still to come. -/
def lastByteOfCap : State := { running with fill := 12799, capEn := true, cap := 1#64 }

/-- A byte that leaves the block RUNNING, and one that completes the frame the cap allows. -/
theorem witness_BeatByteLastEndsStream :
    (running.driver = .running ∧ ∃ u, exec (.beatByte 1#8) running = .next u ∧ u.driver = .running) ∧
    ∃ u, exec (.beatByte 1#8) lastByteOfCap = .next u ∧ u.driver ≠ .running := by
  refine ⟨⟨rfl, _, rfl, rfl⟩, acceptByte 1#8 lastByteOfCap, rfl, ?_⟩
  rcases acceptByte_cases 1#8 lastByteOfCap with ⟨h, -⟩ | ⟨-, h⟩
  · exact absurd rfl h
  · rw [h, commitFrame_driver]; decide

theorem witness_BeatEosEndsStream : running.driver = .running := rfl

theorem witness_PermutationBijective : 6399 < 6400 ∧ P 6399 < 6400 ∧ (6399 % 80 = 0 ∨ 6399 % 80 = 79) := by decide

theorem witness_AddressGeneratorRealizations : (6399 : Nat) < 6400 := by decide

theorem witness_SampleByteOrder :
    s0.build.byteOrder = .le ∧ { s0 with build := { Build.spec with byteOrder := .be } }.build.byteOrder = .be := by decide

theorem witness_ReorderPlacesSamples : (6399 : Nat) < 6400 := by decide

theorem witness_CalibFormula :
    ((6399#13).toNat < 6400 ∧ Cells.Rising 6400 s0.wires.calibrated) ∧ s0.build.threshSub = false ∧
    { s0 with build := { Build.spec with threshSub := true } }.build.threshSub = true ∧ 6400 ≤ (6400#13).toNat := by decide

/-- C15, C19 and C9. -/
theorem witness_CalibCornerCases :
    (pixel0 0#64 0#64).build.threshSub = false ∧
    fromBits64 (coefAt (pixel0 0x7FF8000000000000#64 0#64) .slope 0) = .nan ∧
    fromBits64 (coefAt (pixel0 0#64 0x7FF8000000000000#64) .intercept 0) = .nan ∧
    fromBits64 (coefAt (pixel0 0x7FF0000000000000#64 0#64) .slope 0) = .inf false ∧
    fromBits64 (coefAt (pixel0 0x3FF0000000000000#64 1#64) .slope 0) = .fin false (2 ^ 52) 1022 ∧
    fromBits64 (coefAt (pixel0 0x3FF0000000000000#64 1#64) .intercept 0) = .fin false 1 0 := by decide +kernel

/-- Counts in every accumulator, in a 32-bit build, at the largest value of a bin. -/
def counted : State :=
  { running with
    build := { Build.spec with sumW := 32, histW := 32 }
    sum := [(20, 5#64)]
    rawhist := [(5, 0xFFFFFFFF#64)]
    calhist := [(999, 1#64)] }

theorem get_lt {n i : Nat} {v : DWord} (h : v.toNat < n) (hn : 0 < n) (b : Nat) :
    (Cells.get 0#64 [(i, v)] b).toNat < n := by
  rw [Cells.get, Cells.find]
  split
  · exact h
  · exact hn

theorem witness_IngestSpatialAdds : counted.build.ok = true ∧ Memory.wf counted := by decide

theorem witness_IngestRawHistCounts :
    counted.build.ok = true ∧ Memory.wf counted ∧ ∀ b, (rawhistAt counted b).toNat < 2 ^ counted.build.histW :=
  ⟨by decide, by decide, get_lt (by decide) (by decide)⟩

theorem witness_IngestCalHistCounts :
    counted.build.ok = true ∧ Memory.wf counted ∧ ∀ b, (calhistAt counted b).toNat < 2 ^ counted.build.histW :=
  ⟨by decide, by decide, get_lt (by decide) (by decide)⟩

/-- The largest counted value, and the value just above it, 100.0. -/
theorem witness_CalibratedCountedRange :
    (fromBits64 0x4058FFFFFFFFFFFF#64).canonical = true ∧ (fromBits64 0x4059000000000000#64).canonical = true ∧
    F64.nan.canonical = true := by decide

/-- A tie, a result in the subnormal range, and the midpoint above the largest finite value. -/
theorem witness_RoundingNearestEven :
    roundUnits false (2 ^ 53 + 1) 0 = .fin false (2 ^ 52) 1 ∧ roundUnits true 3 1 = .fin true 2 0 ∧
    (F64.fin true 1 0).canonical = true ∧
    (2 ^ 54 - 1) * 2 ^ 2045 * 2 ^ 0 ≤ 2 * ((2 ^ 54 - 1) * 2 ^ 2044) := by decide +kernel

theorem witness_FrameCommitEffect :
    counted.build.ok = true ∧ Memory.wf counted ∧ (∀ b, (rawhistAt counted b).toNat < 2 ^ counted.build.histW) ∧
    (∀ b, (calhistAt counted b).toNat < 2 ^ counted.build.histW) ∧
    ({ counted with capEn := true, cap := 1#64 }.capEn = true ∧ counted.frames + 1#64 = 1#64) ∧
    ¬ (counted.capEn = true ∧ counted.frames + 1#64 = counted.cap) :=
  ⟨by decide, by decide, get_lt (by decide) (by decide), get_lt (by decide) (by decide), by decide, by decide⟩

theorem rising_constGrid (w : DWord) : Cells.Rising 6400 (constGrid w) := by
  unfold constGrid; exact Cells.rising_full 6400 fun _ => w

theorem rising_record100 : Cells.Rising 12800 record100 := by
  unfold record100; exact Cells.rising_full 12800 fun j => if j % 2 = 0 then 100#8 else 0#8

theorem commitReady_wf : Memory.wf commitReady :=
  ⟨by decide, by decide, by decide, rising_constGrid _, rising_constGrid _, rising_constGrid _, rising_record100⟩

/-- A frame of 100 overflows nothing. -/
theorem commitReady_overflows_nothing :
    (commitFrame commitReady).sumOvf = false ∧ (commitFrame commitReady).rhOvf = false ∧
    (commitFrame commitReady).chOvf = false := by
  have hb : (reorderRecord commitReady).build = Build.spec := by simp; rfl
  have hb' : (calibratedRecord commitReady).build = Build.spec := by unfold calibratedRecord; simp; rfl
  have hz : ∀ i, Cells.get 0#64 [] i = 0#64 := fun _ => rfl
  refine ⟨?_, ?_, ?_⟩ <;> rw [Bool.eq_false_iff, ne_eq]
  · rw [commitFrame_sumOvf, sumOvf_ingestSpatialFrame (by rw [hb]; decide) (by simp; exact commitReady_wf.1)]
    rintro (h | ⟨k, hk, h⟩)
    · simp at h; exact absurd h (by decide)
    · have hx := (spatialAt (reorderRecord commitReady) (P k)).isLt
      rw [hb, sumAt, show (reorderRecord commitReady).sum = [] by simp; rfl, hz, show Build.spec.sumW = 64 from rfl] at h
      simp at h
      omega
  · rw [commitFrame_rhOvf, rhOvf_ingestRawHistogram (by decide) commitReady_wf.2.1]
    rintro (h | ⟨b, -, h⟩)
    · exact absurd h (by decide)
    · have hle : rawBinCount commitReady b ≤ 6400 := by
        rw [← rawIndices_length]; exact List.countP_le_length
      rw [rawhistAt, show commitReady.rawhist = [] from rfl, hz, show commitReady.build.histW = 64 from rfl] at h
      simp at h
      omega
  · rw [commitFrame_chOvf_eq, chOvf_ingestCalHistogram (by rw [hb']; decide)
      (by rw [show (calibratedRecord commitReady).calhist = [] by unfold calibratedRecord; simp; rfl]; decide)]
    rintro (h | ⟨b, -, h⟩)
    · unfold calibratedRecord at h; simp at h; exact absurd h (by decide)
    · have hle : calBinCount (calibratedRecord commitReady) b ≤ 6400 := by
        rw [← rawIndices_length]; exact List.countP_le_length
      rw [calhistAt, show (calibratedRecord commitReady).calhist = [] by unfold calibratedRecord; simp; rfl, hz, hb',
        show Build.spec.histW = 64 from rfl] at h
      simp at h
      omega

theorem witness_CommitConservation :
    commitReady.build.ok = true ∧ Memory.wf commitReady ∧
    ∃ t, exec .frameCommit commitReady = .next t ∧ t.sumOvf = false ∧ t.rhOvf = false ∧ t.chOvf = false :=
  ⟨by decide, commitReady_wf, _, rfl, commitReady_overflows_nothing⟩

theorem witness_ScatterAddOrderIndependent :
    (64 : Nat) ≤ 64 ∧ Cells.Canonical 0#64 8 [(7, 1#64)] ∧ (∀ e ∈ [(7, 1), (0, 2)], e.1 < 8) ∧
    [(7, 1), (0, 2)].Perm [(0, 2), (7, 1)] := ⟨by decide, by decide, by decide, List.Perm.swap _ _ _⟩

theorem witness_CommitOrderIndependent : counted.build.ok = true ∧ Memory.wf counted := by decide

theorem witness_TableAndCapFixedOutsideInit :
    running.driver ≠ .init ∧ ∃ t, exec (.wrCoefHi 5#32) running = .next t := ⟨by decide, _, rfl⟩

/-- The host writes `w` to CMD next. -/
def command (s : State) (w : Word) : State := s.withFetchWord 32 w.toNat

/-- Every transition of 43_driver.md R190: reset, CMD INIT, CMD START with and without a cap of 0, the cap, the end of the
stream. -/
theorem witness_DriverTransitions :
    (∃ t, step { running with sched := [.reset] } = .next t ∧ t.driver ≠ .running) ∧
    (∃ t, step (command stoppedByCap 1#32) = .next t ∧ t.driver ≠ .stopped) ∧
    (∃ t, step (command ready 2#32) = .next t ∧ t.driver ≠ .init) ∧
    (∃ t, step (command { ready with capEn := true } 2#32) = .next t ∧ t.driver ≠ .init) ∧
    (∃ t, step (running.withFetchWord 16 0x100) = .next t ∧ t.driver ≠ .running) ∧
    ∃ t, step (lastByteOfCap.withFetchWord 16 0x201) = .next t ∧ t.driver ≠ .running := by
  refine ⟨⟨_, rfl, by decide⟩, ⟨_, rfl, by decide⟩, ⟨_, rfl, by decide⟩, ⟨_, rfl, by decide⟩, ⟨_, rfl, by decide⟩,
    commitFrame { lastByteOfCap with fbuf := Cells.insert [] 12799 1#8 }, rfl, ?_⟩
  rw [commitFrame_driver]
  decide

/-- Every cell a frame of 100 at slope 0.1 counts in stands at the largest 32-bit value. -/
def overflowing : State :=
  { commitReady with
    build := { Build.spec with sumW := 32, histW := 32 }
    sum := [(0, 0xFFFFFFFF#64)]
    rawhist := [(12, 0xFFFFFFFF#64)]
    calhist := [(100, 0xFFFFFFFF#64)] }

theorem overflowing_sets_all :
    (commitFrame overflowing).sumOvf = true ∧ (commitFrame overflowing).rhOvf = true ∧
    (commitFrame overflowing).chOvf = true := by
  have hb : (reorderRecord overflowing).build = overflowing.build := by simp
  have hb' : (calibratedRecord overflowing).build = overflowing.build := by unfold calibratedRecord; simp
  have hc : (calibratedRecord overflowing).calhist = [(100, 0xFFFFFFFF#64)] := by unfold calibratedRecord; simp; rfl
  refine ⟨?_, ?_, ?_⟩
  · rw [commitFrame_sumOvf, sumOvf_ingestSpatialFrame (by rw [hb]; decide)
      (by rw [show (reorderRecord overflowing).sum = [(0, 0xFFFFFFFF#64)] by simp; rfl]; decide)]
    refine .inr ⟨0, by decide, ?_⟩
    rw [spatialAt_reorderRecord _ (by decide), sample_record100 overflowing rfl rfl (by decide), hb, sumAt,
      show (reorderRecord overflowing).sum = [(0, 0xFFFFFFFF#64)] by simp; rfl]
    decide
  · have hn : rawBinCount overflowing 12 = 6400 :=
      count_all fun k hk => by rw [sample_record100 overflowing rfl rfl hk]; rfl
    rw [commitFrame_rhOvf, rhOvf_ingestRawHistogram (by decide) (by decide)]
    exact .inr ⟨12, by rw [hn]; decide, by rw [hn]; decide⟩
  · have hn : calBinCount (calibratedRecord overflowing) 100 = 6400 := by
      rw [calBinCount_calibratedRecord]
      refine count_all fun k hk => ?_
      rw [sample_record100 overflowing rfl rfl hk, calibValue_slope01 (s := overflowing) rfl rfl (P_lt hk)]
      decide +kernel
    rw [commitFrame_chOvf_eq, chOvf_ingestCalHistogram (by rw [hb']; decide) (by rw [hc]; decide)]
    exact .inr ⟨100, by rw [hn]; decide, by rw [hn, hb', calhistAt, hc]; decide⟩

/-- Each flag set by an operation that names it, `cfg_err` cleared by a START, and a set flag that CMD INIT does not clear. -/
theorem witness_FlagsChangedOnlyByTheirRules :
    (∃ t, exec .cmdStart s0 = .next t ∧ s0.cfgErr = false ∧ t.cfgErr = true) ∧
    (∃ t, exec .cmdStart { ready with cfgErr := true } = .next t ∧ t.cfgErr = false) ∧
    (∃ t, exec .cmdStart running = .next t ∧ running.cmdErr = false ∧ t.cmdErr = true) ∧
    (∃ t, exec .frameCommit overflowing = .next t ∧ t.sumOvf ≠ overflowing.sumOvf ∧ t.rhOvf ≠ overflowing.rhOvf ∧
      t.chOvf ≠ overflowing.chOvf) ∧
    ¬ clearsFlags .cmdInit { running with sumOvf := true, rhOvf := true, chOvf := true, cmdErr := true } ∧
    clearsFlags .cmdInit stoppedByCap := by
  refine ⟨⟨_, rfl, rfl, rfl⟩, ⟨_, rfl, rfl⟩, ⟨_, rfl, rfl, rfl⟩, ⟨_, rfl, ?_⟩, ?_, ?_⟩
  · obtain ⟨h1, h2, h3⟩ := overflowing_sets_all
    rw [h1, h2, h3]; decide
  · simp only [clearsFlags]; decide
  · simp only [clearsFlags]; decide

theorem witness_CommandErrorCauses :
    (∃ t, exec (.wrCmd 3#32) s0 = .next t) ∧ cmdErrorCause (.wrCmd 3#32) s0 ∧ (∀ w, Instr.wrCmd 3#32 ≠ .wrRdCtrl w) ∧
    cmdErrorCause (.wrRdCtrl 0x000203E8#32) s0 ∧ ¬ cmdErrorCause (.wrRdCtrl 0x000203E7#32) s0 := by
  refine ⟨⟨_, rfl⟩, ?_, fun w h => Instr.noConfusion h, ?_, ?_⟩ <;> (simp only [cmdErrorCause]; decide)

/-- A run in progress: three of five frames of 100 counted, and the last byte of the fourth offered next. -/
def midRun : State :=
  { commitReady with
    capEn := true
    cap := 5#64
    frames := 3#64
    sum := constGrid 300#64
    rawhist := [(12, 19200#64)]
    calhist := [(100, 19200#64)]
    fill := 12799
    beats := [{ keep := true, last := false, data := 0#8 }]
    sched := [.stream] }

theorem mem_constGrid {w : DWord} {e : Nat × DWord} (h : e ∈ constGrid w) : e.2 = w := by
  unfold constGrid at h
  obtain ⟨p, -, rfl⟩ := List.mem_map.mp h
  rfl

theorem get_constGrid_lt {w : DWord} {n : Nat} (hw : w.toNat < n) (hn : 0 < n) (p : Nat) :
    (Cells.get 0#64 (constGrid w) p).toNat < n := by
  rw [Cells.get]
  cases h : Cells.find (constGrid w) p with
  | none => exact hn
  | some v => rw [show v = w from mem_constGrid (Cells.mem_of_find h)]; exact hw

theorem midRun_inv : Inv midRun where
  build := by decide
  arrays := by
    have hw := commitReady_wf
    exact ⟨⟨rising_constGrid _, fun e he => by rw [mem_constGrid he]; decide⟩, by decide, by decide, hw.2.2.2⟩
  sumWidth := get_constGrid_lt (by decide) (by decide)
  rawWidth := get_lt (by decide) (by decide)
  calWidth := get_lt (by decide) (by decide)
  fillBound := by decide
  fillIdle := fun h => absurd rfl h
  recordBytes := fun j hj => by
    rw [show midRun.fbuf = record100 from rfl, find_record100 (Nat.lt_trans hj (by decide))]; rfl
  cntBound := fun g => by cases g <;> decide
  ovfFull := fun g h => by cases g <;> exact absurd h (by decide)
  loaded := fun g i hi => by
    have hi' : i < 6400 := by cases g <;> exact hi
    cases g <;> exact Option.isSome_iff_exists.mpr ⟨_, find_constGrid _ (P_lt hi')⟩
  tableReady := fun _ => by decide
  cause := by decide
  initClear := fun h => absurd h (by decide)
  capAhead := fun _ _ => by decide
  capReached := fun h => absurd h (by decide)
  wiresQuiet := rfl

theorem witness_InvariantKept : Inv midRun ∧ ∃ t, step midRun = .next t := ⟨midRun_inv, _, rfl⟩

theorem sum_get_single {n i : Nat} {v : DWord} (hi : i < n) :
    ∑ b ∈ Finset.range n, (Cells.get 0#64 [(i, v)] b).toNat = v.toNat := by
  refine (Finset.sum_eq_single_of_mem i (Finset.mem_range.mpr hi) fun b _ hb => ?_).trans ?_
  · rw [Cells.get, Cells.find, if_neg hb]; rfl
  · rw [Cells.get, Cells.find, if_pos rfl]; rfl

/-- Three commits of a frame of 100: 3 * 6400 counts, and 3 * 6400 * 100 in the sum image. -/
theorem midRun_conserved : Conserved 3 1920000 midRun where
  frames := rfl
  raw := fun _ => sum_get_single (by decide)
  cal := (sum_get_single (i := 100) (v := 19200#64) (by decide)).le
  sum := fun _ => by
    have h : ∀ p ∈ Finset.range 6400, (sumAt midRun p).toNat = 300 := fun p hp => by
      rw [sumAt, Cells.get, show midRun.sum = constGrid 300#64 from rfl, find_constGrid _ (Finset.mem_range.mp hp)]
      rfl
    rw [Finset.sum_congr rfl h, Finset.sum_const, Finset.card_range]
    rfl

theorem witness_CommitConservation_step :
    Inv midRun ∧ Conserved 3 1920000 midRun ∧ ∃ t, step midRun = .next t := ⟨midRun_inv, midRun_conserved, _, rfl⟩

/-- The largest exact number; patterns at the edges of the exponent: 0, subnormal, the least normal, the largest finite,
infinity, NaN; and both zeros, which are not negative. -/
theorem witness_Binary64Operations :
    (2 ^ 53 - 1 : Nat) < 2 ^ 53 ∧ (1 : Nat) ≠ 0 ∧
    (let e := fun w : DWord => w.toNat / 2 ^ 52 % 2 ^ 11
     e 0x800FFFFFFFFFFFFF#64 = 0 ∧ (0 < e 0x0010000000000000#64 ∧ e 0x7FEFFFFFFFFFFFFF#64 < 2047) ∧
     e 0xFFF0000000000000#64 = 2047 ∧ e 0x7FF8000000000000#64 = 2047) ∧
    0 ≤ (F64.fin true 0 0).value ∧ 0 ≤ (F64.fin false 0 0).value := by
  refine ⟨by decide, by decide, by decide, ?_, ?_⟩ <;> simp [F64.value_fin]

/-- The order at a zero of either sign, just below and at 10000, and with a NaN (42_accumulator.md R164, the domain test). -/
theorem test_flt64 :
    flt64 (fromBits64 0x8000000000000000#64) (fromBits64 0#64) = false ∧ flt64 (f64OfNat 0) (fromBits64 1#64) = true ∧
    flt64 (fromBits64 0xBFF0000000000000#64) (f64OfNat 0) = true ∧
    flt64 (fromBits64 0x40C387FFFFFFFFFF#64) (f64OfNat 10000) = true ∧
    flt64 (fromBits64 0x40C3880000000000#64) (f64OfNat 10000) = false ∧
    flt64 .nan (f64OfNat 10000) = false ∧ flt64 (f64OfNat 0) .nan = false := by decide +kernel

/-- The largest integer at or below 63.5, 999.9999999999999, 29.0 and 0.5. -/
theorem test_floorInt :
    floorInt (fromBits64 0x404FC00000000000#64) = some 63 ∧ floorInt (fromBits64 0x408F3FFFFFFFFFFF#64) = some 999 ∧
    floorInt (fromBits64 0x403D000000000000#64) = some 29 ∧ floorInt (fromBits64 0x3FE0000000000000#64) = some 0 := by
  decide +kernel

/-- Two states that differ in the frame buffer above `fill`. -/
theorem witness_FrameBufferPastFillUnobservable :
    let s := { running with fill := 1, fbuf := [(0, 5#8)] }
    s.fill < 12800 ∧ ∀ j, j < s.fill → Cells.find [(0, 5#8), (1, 6#8)] j = Cells.find s.fbuf j := by
  refine ⟨by decide, fun j hj => ?_⟩
  obtain rfl : j = 0 := Nat.lt_one_iff.mp hj
  rfl

end Sys2Proof.Tests
end

section
/-! PROOF. The turns of a step: whose turn runs what, and the turns that run nothing (00_scope.md R13, R15). -/

namespace Sys2Proof.Machine

/-- A turn that runs an operation is a step that runs it. -/
theorem step_of_run {s t : State} {i : Instr} (h : nextTurn s = .run i t) : step s = exec i t := by
  unfold step; rw [h]

/-- A turn that runs nothing is a step to the state it leaves. -/
theorem step_of_quiet {s t : State} (h : nextTurn s = .quiet t) : step s = .next t := by
  unfold step; rw [h]

theorem nextTurn_nil {s : State} (hs : s.sched = []) : nextTurn s = .quiet s := by
  simp only [nextTurn, hs]

theorem nextTurn_bus {s : State} {rest : List Agent} (hs : s.sched = .bus :: rest) :
    nextTurn s = busTurn { s with sched := rest } := by
  simp only [nextTurn, hs]

theorem nextTurn_stream {s : State} {rest : List Agent} (hs : s.sched = .stream :: rest) :
    nextTurn s = streamTurn { s with sched := rest } := by
  simp only [nextTurn, hs]

theorem busTurn_nil {s : State} (hb : s.busQueue = []) : busTurn s = .quiet s := by
  simp only [busTurn, hb]

theorem busTurn_cons {s : State} {a : BusAccess} {more : List BusAccess} (hb : s.busQueue = a :: more) :
    busTurn s = .run (decodeBus a) { s with busQueue := more } := by
  simp only [busTurn, hb]

theorem streamTurn_nil {s : State} (hb : s.beats = []) : streamTurn s = .quiet s := by
  simp only [streamTurn, hb]

/-- While RUNNING the front beat is accepted, so it is no longer offered (43_driver.md R212). -/
theorem streamTurn_cons_of_running {s : State} {b : Beat} {more : List Beat} (hr : s.driver = .running)
    (hb : s.beats = b :: more) : streamTurn s = .run (decodeBeat b) { s with beats := more } := by
  simp only [streamTurn, hb, offeredAfter, if_pos hr]

/-- Settles O6: the bus master's turn takes the oldest access of its queue. -/
theorem stepRunsBusAccess : Obligations.StepRunsBusAccess := by
  intro s a more rest hs hb
  exact step_of_run ((nextTurn_bus hs).trans (busTurn_cons hb))

/-- Settles O7: the stream's turn takes the beat at the front, which RUNNING accepts. -/
theorem stepRunsAcceptedBeat : Obligations.StepRunsAcceptedBeat := by
  intro s b more rest hr hs hb
  exact step_of_run ((nextTurn_stream hs).trans (streamTurn_cons_of_running hr hb))

/-- Settles O9: an empty schedule, and an agent with an empty queue, give a quiet turn. -/
theorem blockNeverMovesAlone : Obligations.BlockNeverMovesAlone := by
  intro s
  refine ⟨fun hs => ?_, fun rest hs hb => ?_, fun rest hs hb => ?_⟩
  · exact step_of_quiet (nextTurn_nil hs)
  · exact step_of_quiet ((nextTurn_bus hs).trans (busTurn_nil hb))
  · exact step_of_quiet ((nextTurn_stream hs).trans (streamTurn_nil hb))

end Sys2Proof.Machine
end

section
/-! PROOF. `roundUnits` rounds to nearest, ties to even (00_scope.md R11). Its result is one significand on the grid of
multiples of `2 ^ q`: `RoundsTo` says which one, and the law of rounding follows from that. -/

namespace Sys2Proof.Machine

/-- `M` is the number of places of size `D` that `n` is rounded to: within half a place, even on a tie, and a significand of
53 bits or the one carried out of them. -/
structure RoundsOn (n D M : Nat) : Prop where
  near : 2 * ((n : Int) - (M * D : Nat)).natAbs ≤ D
  tie : 2 * ((n : Int) - (M * D : Nat)).natAbs = D → M % 2 = 0
  le : M ≤ 2 ^ 53

/-- `M * 2 ^ q` is what `n / 2 ^ sh` is rounded to: above the subnormal grid `q = 0` the number has 53 bits on the grid. -/
structure RoundsTo (n sh M q : Nat) : Prop extends RoundsOn n (2 ^ q * 2 ^ sh) M where
  normal : 0 < q → 2 ^ 52 * (2 ^ q * 2 ^ sh) ≤ n

/-! ## Rounding on one grid -/

/-- The quotient is the rounded one when the remainder is below half a place, or is half and the quotient even. -/
theorem RoundsOn.of_down {n D : Nat} (hD : 0 < D) (hlt : n < 2 ^ 53 * D)
    (h : ¬ (D < 2 * (n % D) ∨ 2 * (n % D) = D ∧ n / D % 2 = 1)) : RoundsOn n D (n / D) := by
  have hdist : ((n : Int) - (n / D * D : Nat)).natAbs = n % D := by
    have hdm := Nat.div_add_mod' n D
    omega
  have hm : n / D < 2 ^ 53 := (Nat.div_lt_iff_lt_mul hD).mpr hlt
  constructor
  · rw [hdist]; omega
  · rw [hdist]; omega
  · exact hm.le

/-- The quotient's successor is the rounded one when the remainder is above half a place, or is half and the quotient
odd. -/
theorem RoundsOn.of_up {n D : Nat} (hD : 0 < D) (hlt : n < 2 ^ 53 * D)
    (h : D < 2 * (n % D) ∨ 2 * (n % D) = D ∧ n / D % 2 = 1) : RoundsOn n D (n / D + 1) := by
  have hr := Nat.mod_lt n hD
  have hdist : ((n : Int) - ((n / D + 1) * D : Nat)).natAbs = D - n % D := by
    have hdm := Nat.div_add_mod' n D
    rw [Nat.succ_mul]
    omega
  constructor
  · rw [hdist]; omega
  · rw [hdist]; omega
  · exact (Nat.div_lt_iff_lt_mul hD).mpr hlt

namespace RoundsOn

variable {n D M : Nat} (h : RoundsOn n D M)
include h

/-- The number is at most half a place below and above the rounded one. -/
theorem bounds : 2 * (M * D) ≤ 2 * n + D ∧ 2 * n ≤ 2 * (M * D) + D := by
  have hnear := h.near
  generalize M * D = A at *
  omega

/-- A number half a place above the rounded one is rounded down to it because it is even. -/
theorem even_of_half_above (hhalf : 2 * n = 2 * (M * D) + D) : M % 2 = 0 := by
  apply h.tie
  generalize M * D = A at *
  omega

/-- No other number of places is nearer, and only at half a place is another as near. -/
theorem nearest_multiple (k : Nat) :
    ((n : Int) - (M * D : Nat)).natAbs ≤ ((n : Int) - (k * D : Nat)).natAbs ∧
    (((n : Int) - (M * D : Nat)).natAbs = ((n : Int) - (k * D : Nat)).natAbs → M ≠ k → M % 2 = 0) := by
  have hnear := h.near
  have htie := h.tie
  rcases lt_trichotomy M k with hlt | rfl | hlt
  · have hstep : (M + 1) * D ≤ k * D := Nat.mul_le_mul_right D hlt
    rw [Nat.succ_mul] at hstep
    generalize M * D = A at *
    generalize k * D = B at *
    omega
  · exact ⟨le_rfl, fun _ hne => absurd rfl hne⟩
  · have hstep : (k + 1) * D ≤ M * D := Nat.mul_le_mul_right D hlt
    rw [Nat.succ_mul] at hstep
    generalize M * D = A at *
    generalize k * D = B at *
    omega

/-- A number of at least 53 bits on the grid keeps its top bit when it is rounded. -/
theorem le_significand (hD : 0 < D) (hn : 2 ^ 52 * D ≤ n) : 2 ^ 52 ≤ M := by
  have hhigh := h.bounds.2
  by_contra hM
  have hlow : (M + 1) * D ≤ 2 ^ 52 * D := Nat.mul_le_mul_right D (by omega)
  rw [Nat.succ_mul] at hlow
  generalize M * D = A at *
  omega

/-- The significand is carried out of its 53 bits from the midpoint below `2 ^ 53` places on: the one before is odd, so
the tie is not left to it. -/
theorem carried_iff (hD : 0 < D) : M = 2 ^ 53 ↔ (2 ^ 54 - 1) * D ≤ 2 * n := by
  obtain ⟨hlow, hhigh⟩ := h.bounds
  have heven := h.even_of_half_above
  have hle := h.le
  constructor
  · rintro rfl
    omega
  · intro hn
    by_contra hM
    rcases (by omega : M + 1 = 2 ^ 53 ∨ M + 2 ≤ 2 ^ 53) with hlast | hsmall
    · have hprod : (M + 1) * D = 2 ^ 53 * D := by rw [hlast]
      rw [Nat.succ_mul] at hprod
      have := heven (by omega)
      omega
    · have hprod : (M + 2) * D ≤ 2 ^ 53 * D := Nat.mul_le_mul_right D hsmall
      rw [Nat.add_mul] at hprod
      generalize M * D = A at *
      omega

/-- A number that fits a grid is below the midpoint of every coarser one. -/
theorem lt_of_coarser {E : Nat} (hD : 0 < D) (hE : D * 2 ≤ E) : 2 * n < (2 ^ 54 - 1) * E := by
  have hhigh := h.bounds.2
  have hM : M * D ≤ 2 ^ 53 * D := Nat.mul_le_mul_right D h.le
  generalize M * D = A at *
  omega

end RoundsOn

/-! ## The rounded significand -/

/-- Two places of one grid make one of the next, at most. -/
theorem double_grid_le {q q' : Nat} (sh : Nat) (hq : q < q') : 2 ^ q * 2 ^ sh * 2 ≤ 2 ^ q' * 2 ^ sh := calc
  2 ^ q * 2 ^ sh * 2 = 2 ^ (q + 1) * 2 ^ sh := by ring
  _ ≤ 2 ^ q' * 2 ^ sh := Nat.mul_le_mul_right _ (Nat.pow_le_pow_right two_pos hq)

/-- A number of at least 53 bits on a grid is past the midpoint of every finer one. -/
theorem midpoint_le_of_finer {n D E : Nat} (hE : E * 2 ≤ D) (hn : 2 ^ 52 * D ≤ n) : (2 ^ 54 - 1) * E ≤ 2 * n := by
  omega

theorem roundsTo_zero (sh : Nat) : RoundsTo 0 sh 0 0 where
  near := by simp
  tie := fun _ => rfl
  le := Nat.zero_le _
  normal := fun h => absurd h (Nat.lt_irrefl 0)

/-- The number of bits dropped leaves a significand below `2 ^ 53`. -/
theorem lt_of_significand_exponent (n sh : Nat) :
    n < 2 ^ 53 * (2 ^ (Nat.log2 n + 1 - (sh + 53)) * 2 ^ sh) := by
  rw [← pow_add, ← pow_add]
  exact Nat.lt_log2_self.trans_le (Nat.pow_le_pow_right two_pos (by omega))

/-- When bits above the subnormal grid are dropped, the significand has its top bit. -/
theorem le_of_significand_exponent {n sh : Nat} (hn : n ≠ 0) (hq : 0 < Nat.log2 n + 1 - (sh + 53)) :
    2 ^ 52 * (2 ^ (Nat.log2 n + 1 - (sh + 53)) * 2 ^ sh) ≤ n := by
  rw [← pow_add, ← pow_add]
  exact (Nat.pow_le_pow_right two_pos (by omega)).trans (Nat.log2_self_le hn)

/-- What `roundUnits` does, said once: it packs the rounded significand. -/
theorem roundUnits_eq_packRounded (neg : Bool) (n sh : Nat) :
    ∃ M q, RoundsTo n sh M q ∧ roundUnits neg n sh = packRounded neg M q := by
  by_cases hn : n = 0
  · subst hn
    exact ⟨0, 0, roundsTo_zero sh, rfl⟩
  have hlt := lt_of_significand_exponent n sh
  have hnormal := le_of_significand_exponent (sh := sh) hn
  simp only [roundUnits, if_neg hn, pow_add]
  split
  · exact ⟨_, _, ⟨.of_up (by positivity) hlt ‹_›, hnormal⟩, rfl⟩
  · exact ⟨_, _, ⟨.of_down (by positivity) hlt ‹_›, hnormal⟩, rfl⟩

/-- Packing a significand: past the largest finite value, carried out of its 53 bits, or as it is. -/
theorem packRounded_cases (neg : Bool) (M q : Nat) :
    ((2045 < q ∨ q = 2045 ∧ M = 2 ^ 53) ∧ packRounded neg M q = .inf neg) ∨
    (q < 2045 ∧ M = 2 ^ 53 ∧ packRounded neg M q = .fin neg (2 ^ 52) (q + 1)) ∨
    (q ≤ 2045 ∧ M ≠ 2 ^ 53 ∧ packRounded neg M q = .fin neg M q) := by
  unfold packRounded
  by_cases hM : M = 2 ^ 53
  · simp only [if_pos hM]
    by_cases hq : 2045 < q + 1
    · exact .inl ⟨by omega, if_pos hq⟩
    · exact .inr (.inl ⟨by omega, hM, if_neg hq⟩)
  · simp only [if_neg hM]
    by_cases hq : 2045 < q
    · exact .inl ⟨.inl hq, if_pos hq⟩
    · exact .inr (.inr ⟨by omega, hM, if_neg hq⟩)

/-! ## The law of rounding -/

namespace RoundsTo

variable {n sh M q : Nat} (h : RoundsTo n sh M q)
include h

/-- Below the normal grid a value of at most 53 bits is farther from the number than the least normal one. -/
theorem lt_of_finer {m' q' : Nat} (hm : m' < 2 ^ 53) (hq : q' < q) :
    ((n : Int) - (M * (2 ^ q * 2 ^ sh) : Nat)).natAbs < ((n : Int) - (m' * (2 ^ q' * 2 ^ sh) : Nat)).natAbs := by
  have hnormal := h.normal (by omega)
  have hbest := (h.nearest_multiple (2 ^ 52)).1
  have hsmall : m' * (2 ^ q' * 2 ^ sh) < 2 ^ 53 * (2 ^ q' * 2 ^ sh) := Nat.mul_lt_mul_of_pos_right hm (by positivity)
  have hgrid := double_grid_le sh hq
  generalize 2 ^ q * 2 ^ sh = D at *
  generalize m' * (2 ^ q' * 2 ^ sh) = A at *
  generalize 2 ^ q' * 2 ^ sh = D' at *
  generalize M * D = B at *
  omega

/-- No value of at most 53 bits is nearer than the rounded one, and only to an even significand is another as near. -/
theorem nearest {m' : Nat} (q' : Nat) (hm : m' < 2 ^ 53) :
    ((n : Int) - (M * (2 ^ q * 2 ^ sh) : Nat)).natAbs ≤ ((n : Int) - (m' * (2 ^ q' * 2 ^ sh) : Nat)).natAbs ∧
    (((n : Int) - (M * (2 ^ q * 2 ^ sh) : Nat)).natAbs = ((n : Int) - (m' * (2 ^ q' * 2 ^ sh) : Nat)).natAbs →
      M * 2 ^ q ≠ m' * 2 ^ q' → M % 2 = 0) := by
  rcases lt_or_ge q' q with hq | hq
  · have hlt := h.lt_of_finer hm hq
    exact ⟨hlt.le, fun heq => absurd heq hlt.ne⟩
  obtain ⟨j, rfl⟩ := Nat.exists_eq_add_of_le hq
  obtain ⟨hle, htie⟩ := h.nearest_multiple (m' * 2 ^ j)
  have hgrid : m' * (2 ^ (q + j) * 2 ^ sh) = m' * 2 ^ j * (2 ^ q * 2 ^ sh) := by ring
  rw [hgrid]
  refine ⟨hle, fun heq hne => htie heq fun hM => hne ?_⟩
  rw [hM]; ring

/-- The exact value reaches the midpoint above the largest finite one exactly when its significand has no place: the
exponent is too large, or the largest one is carried out of. -/
theorem overflow_iff :
    (2045 < q ∨ q = 2045 ∧ M = 2 ^ 53) ↔ (2 ^ 54 - 1) * (2 ^ 2045 * 2 ^ sh) ≤ 2 * n := by
  have hpos : 0 < 2 ^ q * 2 ^ sh := by positivity
  rcases lt_trichotomy q 2045 with hq | rfl | hq
  · have hlt := h.lt_of_coarser hpos (double_grid_le sh hq)
    exact ⟨fun ho => by omega, fun hn => absurd hn hlt.not_ge⟩
  · rw [← h.carried_iff hpos]
    simp only [lt_irrefl, false_or, true_and]
  · have hgrid := double_grid_le sh hq
    have hnormal := h.normal (by omega)
    exact ⟨fun _ => midpoint_le_of_finer hgrid hnormal, fun _ => .inl hq⟩

end RoundsTo

/-! ## The results of `roundUnits` -/

/-- A finite result is canonical, of the exact value's sign, and stands for the rounded significand; an even one stays
even when it is carried out of its 53 bits. -/
theorem roundUnits_fin {neg neg' : Bool} {n sh m q : Nat} (h : roundUnits neg n sh = .fin neg' m q) :
    neg' = neg ∧ (F64.fin neg' m q).canonical = true ∧
    ∃ M p, RoundsTo n sh M p ∧ m * 2 ^ q = M * 2 ^ p ∧ (M % 2 = 0 → m % 2 = 0) := by
  obtain ⟨M, p, hr, hu⟩ := roundUnits_eq_packRounded neg n sh
  have hle := hr.le
  rcases packRounded_cases neg M p with ⟨-, hp⟩ | ⟨hq, hM, hp⟩ | ⟨hq, hM, hp⟩ <;> rw [← hu, h] at hp
  · cases hp
  · injection hp with hneg hm hq'
    subst hneg hm hq' hM
    exact ⟨rfl, by simp [F64.canonical]; omega, _, p, hr, by ring, fun _ => rfl⟩
  · injection hp with hneg hm hq'
    subst hneg hm hq'
    have hnormal : 2 ^ 52 ≤ m ∨ q = 0 :=
      (Nat.eq_zero_or_pos q).symm.imp_left fun hpos => hr.le_significand (by positivity) (hr.normal hpos)
    refine ⟨rfl, ?_, m, q, hr, rfl, id⟩
    simp only [F64.canonical, Bool.and_eq_true, Bool.or_eq_true, decide_eq_true_eq]
    exact ⟨⟨by omega, hq⟩, hnormal⟩

/-- The result is an infinity, of the exact value's sign, from the midpoint above the largest finite value on. -/
theorem roundUnits_eq_inf_iff (neg neg' : Bool) (n sh : Nat) :
    roundUnits neg n sh = .inf neg' ↔ neg' = neg ∧ (2 ^ 54 - 1) * (2 ^ 2045 * 2 ^ sh) ≤ 2 * n := by
  obtain ⟨M, q, hr, hu⟩ := roundUnits_eq_packRounded neg n sh
  rw [hu, ← hr.overflow_iff]
  rcases packRounded_cases neg M q with ⟨ho, hp⟩ | ⟨hq, hM, hp⟩ | ⟨hq, hM, hp⟩ <;> rw [hp]
  · exact ⟨fun h => ⟨(F64.inf.inj h).symm, ho⟩, fun h => congrArg F64.inf h.1.symm⟩
  · exact ⟨nofun, fun h => by omega⟩
  · exact ⟨nofun, fun h => by omega⟩

theorem roundUnits_ne_nan (neg : Bool) (n sh : Nat) : roundUnits neg n sh ≠ .nan := by
  obtain ⟨M, q, -, hu⟩ := roundUnits_eq_packRounded neg n sh
  rw [hu]
  rcases packRounded_cases neg M q with ⟨-, hp⟩ | ⟨-, -, hp⟩ | ⟨-, -, hp⟩ <;> rw [hp] <;> exact nofun

theorem F64.canonical_lt {neg : Bool} {m q : Nat} (h : (F64.fin neg m q).canonical = true) : m < 2 ^ 53 := by
  simp only [F64.canonical, Bool.and_eq_true, decide_eq_true_eq] at h
  exact h.1.1

/-- The distance in units, scaled, of a number from a value, as the statements write it. -/
theorem abs_sub_units (n m q sh : Nat) :
    |(n : Int) - m * 2 ^ q * 2 ^ sh| = (((n : Int) - (m * 2 ^ q * 2 ^ sh : Nat)).natAbs : Int) := by
  rw [Int.natCast_natAbs]; push_cast; rfl

/-- No canonical value is nearer than a finite result, and only to an even significand is another as near. -/
theorem roundUnits_fin_nearest {neg neg' : Bool} {n sh m q m' : Nat} (q' : Nat)
    (h : roundUnits neg n sh = .fin neg' m q) (hm : m' < 2 ^ 53) :
    |(n : Int) - m * 2 ^ q * 2 ^ sh| ≤ |(n : Int) - m' * 2 ^ q' * 2 ^ sh| ∧
    (|(n : Int) - m * 2 ^ q * 2 ^ sh| = |(n : Int) - m' * 2 ^ q' * 2 ^ sh| → m * 2 ^ q ≠ m' * 2 ^ q' → m % 2 = 0) := by
  obtain ⟨-, -, M, p, hr, hval, heven⟩ := roundUnits_fin h
  obtain ⟨hle, htie⟩ := hr.nearest q' hm
  rw [abs_sub_units, abs_sub_units, hval, mul_assoc M, mul_assoc m', Nat.cast_le, Nat.cast_inj]
  exact ⟨hle, fun heq hne => heven (htie heq hne)⟩

/-- Settles O47, from the three kinds of result of `roundUnits`. -/
theorem roundingNearestEven : Obligations.RoundingNearestEven := by
  intro neg n sh
  refine ⟨fun neg' m q h => ?_, ?_, ?_, roundUnits_ne_nan neg n sh⟩
  · obtain ⟨hneg, hcan, -⟩ := roundUnits_fin h
    exact ⟨hneg, hcan, fun m' q' hcan' => roundUnits_fin_nearest q' h (F64.canonical_lt hcan')⟩
  · rw [roundUnits_eq_inf_iff, mul_assoc (2 ^ 54 - 1)]
    exact and_iff_right rfl
  · rw [Ne, roundUnits_eq_inf_iff]
    exact fun h => Bool.not_ne_self neg h.1

end Sys2Proof.Machine
end

section
/-! PROOF. The binary64 operations against the numbers their operands stand for (00_scope.md R11, 41_calibration.md R138):
each finite operation rounds once the number `exactValue` names. -/

namespace Sys2Proof.Machine

/-! ## The exact number a rounding starts from -/

/-- The number `roundUnits neg n sh` rounds. -/
def exactValue (neg : Bool) (n sh : Nat) : ℚ := (if neg then -1 else 1) * (n / (2 ^ sh * 2 ^ 1074))

theorem scale_pos (sh : Nat) : (0 : ℚ) < 2 ^ sh * 2 ^ 1074 := mul_pos (pow_pos two_pos _) (pow_pos two_pos _)

theorem exactValue_true (n sh : Nat) : exactValue true n sh = -(n / (2 ^ sh * 2 ^ 1074)) := neg_one_mul _

theorem exactValue_false (n sh : Nat) : exactValue false n sh = n / (2 ^ sh * 2 ^ 1074) := one_mul _

theorem abs_exactValue (neg : Bool) (n sh : Nat) : |exactValue neg n sh| = n / (2 ^ sh * 2 ^ 1074) := by
  have hnonneg : (0 : ℚ) ≤ n / (2 ^ sh * 2 ^ 1074) := div_nonneg n.cast_nonneg (scale_pos sh).le
  cases neg
  · rw [exactValue_false, abs_of_nonneg hnonneg]
  · rw [exactValue_true, abs_neg, abs_of_nonneg hnonneg]

theorem exactValue_false_nonneg (n sh : Nat) : 0 ≤ exactValue false n sh := by
  rw [exactValue_false]; exact div_nonneg n.cast_nonneg (scale_pos sh).le

theorem exactValue_true_nonpos (n sh : Nat) : exactValue true n sh ≤ 0 := by
  rw [exactValue_true]; exact neg_nonpos.mpr (div_nonneg n.cast_nonneg (scale_pos sh).le)

/-- A finite value is the exact number of its units, at any scale. -/
theorem F64.value_eq_exactValue (neg : Bool) (m q sh : Nat) :
    (F64.fin neg m q).value = exactValue neg (m * 2 ^ q * 2 ^ sh) sh := by
  have hsh : (2 : ℚ) ^ sh ≠ 0 := pow_ne_zero _ two_ne_zero
  rw [F64.value_fin, exactValue, Nat.cast_mul, Nat.cast_pow _ sh, Nat.cast_ofNat, mul_comm (_ ^ sh),
    mul_div_mul_right _ _ hsh, Nat.cast_mul, Nat.cast_pow, Nat.cast_ofNat]

/-- Numbers of the same sign are as far apart as their counts of units. -/
theorem abs_exactValue_sub (neg : Bool) (n k sh : Nat) :
    |exactValue neg n sh - exactValue neg k sh| = (|(n : Int) - k| : Int) / (2 ^ sh * 2 ^ 1074) := by
  have habs : |((n : ℚ) - k) / (2 ^ sh * 2 ^ 1074)| = |(n : ℚ) - k| / (2 ^ sh * 2 ^ 1074) := by
    rw [abs_div, abs_of_pos (scale_pos sh)]
  rw [Int.cast_abs, Int.cast_sub, Int.cast_natCast, Int.cast_natCast, ← habs, sub_div]
  cases neg
  · rw [exactValue_false, exactValue_false]
  · rw [exactValue_true, exactValue_true, neg_sub_neg, abs_sub_comm]

/-- Numbers of opposite signs are as far apart as both are from zero together. -/
theorem abs_exactValue_sub_not (neg : Bool) (n k sh : Nat) :
    |exactValue neg n sh - exactValue (!neg) k sh| = |exactValue neg n sh| + |exactValue (!neg) k sh| := by
  have hn := exactValue_false_nonneg
  have hp := exactValue_true_nonpos
  cases neg
  · rw [Bool.not_false, abs_of_nonneg (hn n sh), abs_of_nonpos (hp k sh),
      abs_of_nonneg (sub_nonneg.mpr ((hp k sh).trans (hn n sh))), sub_eq_add_neg]
  · rw [Bool.not_true, abs_of_nonpos (hp n sh), abs_of_nonneg (hn k sh),
      abs_of_nonpos (sub_nonpos.mpr ((hp n sh).trans (hn k sh)))]; ring

/-- The bound of `overflowBound` in units, at any exponents. -/
theorem bound_le_div_iff {a b c : Nat} (hc : c = a + 1 + b) (n sh : Nat) :
    (2 ^ 54 - 1) * 2 ^ a ≤ (n : ℚ) / (2 ^ sh * 2 ^ b) ↔ (2 ^ 54 - 1) * (2 ^ c * 2 ^ sh) ≤ 2 * n := by
  subst hc
  have hcast : (((2 ^ 54 - 1) * (2 ^ (a + 1 + b) * 2 ^ sh) : Nat) : ℚ) =
      2 * ((2 ^ 54 - 1) * 2 ^ a * (2 ^ sh * 2 ^ b)) := by
    push_cast; ring
  rw [le_div_iff₀ (by positivity), ← Nat.cast_le (α := ℚ), hcast, Nat.cast_mul, Nat.cast_ofNat,
    mul_le_mul_iff_right₀ two_pos]

theorem overflowBound_le_iff (n sh : Nat) :
    overflowBound ≤ (n : ℚ) / (2 ^ sh * 2 ^ 1074) ↔ (2 ^ 54 - 1) * (2 ^ 2045 * 2 ^ sh) ≤ 2 * n :=
  bound_le_div_iff (a := 970) (b := 1074) (c := 2045) rfl n sh

/-! ## `roundUnits` rounds it once -/

/-- Equal counts of units are equal numbers. -/
theorem F64.value_congr {neg : Bool} {m q m' q' : Nat} (h : m * 2 ^ q = m' * 2 ^ q') :
    (F64.fin neg m q).value = (F64.fin neg m' q').value := by
  rw [F64.value_eq_exactValue neg m q 0, F64.value_eq_exactValue neg m' q' 0, h]

theorem F64.value_zero (neg : Bool) : (F64.fin neg 0 0).value = 0 := by
  rw [F64.value_fin, Nat.cast_zero, zero_mul, zero_div, mul_zero]

theorem F64.canonical_zero (neg : Bool) : (F64.fin neg 0 0).canonical = true := rfl

section Nearest

variable {neg : Bool} {n sh m q m' q' : Nat} (h : roundUnits neg n sh = .fin neg m q)
include h

/-- Among values of its sign a finite result is nearest to the exact number, ties to even. -/
theorem roundUnits_nearest_same (hcan : (F64.fin neg m' q').canonical = true) :
    |exactValue neg n sh - (F64.fin neg m q).value| ≤ |exactValue neg n sh - (F64.fin neg m' q').value| ∧
    (|exactValue neg n sh - (F64.fin neg m q).value| = |exactValue neg n sh - (F64.fin neg m' q').value| →
      (F64.fin neg m q).value ≠ (F64.fin neg m' q').value → m % 2 = 0) := by
  obtain ⟨hle, htie⟩ := roundUnits_fin_nearest q' h (F64.canonical_lt hcan)
  have hdist : ∀ m q : Nat, |exactValue neg n sh - (F64.fin neg m q).value| =
      (|(n : Int) - m * 2 ^ q * 2 ^ sh| : Int) / (2 ^ sh * 2 ^ 1074) := fun m q => by
    rw [F64.value_eq_exactValue neg m q sh, abs_exactValue_sub]; push_cast; rfl
  rw [hdist, hdist, div_le_div_iff_of_pos_right (scale_pos sh), div_left_inj' (scale_pos sh).ne', Int.cast_le,
    Int.cast_inj]
  exact ⟨hle, fun heq hne => htie heq fun hval => hne (F64.value_congr hval)⟩

/-- A value of the other sign is at best as near as zero. -/
theorem roundUnits_nearest_opposite :
    |exactValue neg n sh - (F64.fin neg m q).value| ≤ |exactValue neg n sh - (F64.fin (!neg) m' q').value| ∧
    (|exactValue neg n sh - (F64.fin neg m q).value| = |exactValue neg n sh - (F64.fin (!neg) m' q').value| →
      (F64.fin neg m q).value ≠ (F64.fin (!neg) m' q').value → m % 2 = 0) := by
  obtain ⟨hle, htie⟩ := roundUnits_nearest_same h (F64.canonical_zero neg)
  rw [F64.value_zero, sub_zero] at hle htie
  have hfar : |exactValue neg n sh - (F64.fin (!neg) m' q').value| =
      |exactValue neg n sh| + |(F64.fin (!neg) m' q').value| := by
    rw [F64.value_eq_exactValue _ m' q' sh, abs_exactValue_sub_not]
  have hnonneg := abs_nonneg (F64.fin (!neg) m' q').value
  rw [hfar]
  refine ⟨by linarith, fun heq hne => htie (by linarith) ?_⟩
  rwa [abs_eq_zero.mp (by linarith : |(F64.fin (!neg) m' q').value| = 0)] at hne

end Nearest

/-- The result of `roundUnits` is its exact number rounded once. -/
theorem isRounded_roundUnits (neg : Bool) (n sh : Nat) : IsRounded (exactValue neg n sh) (roundUnits neg n sh) := by
  rcases h : roundUnits neg n sh with _ | neg' | ⟨neg', m, q⟩
  · exact roundUnits_ne_nan neg n sh h
  · obtain ⟨rfl, hbound⟩ := (roundUnits_eq_inf_iff neg neg' n sh).mp h
    rw [← overflowBound_le_iff] at hbound
    cases neg'
    · exact hbound.trans_eq (exactValue_false n sh).symm
    · exact (exactValue_true n sh).trans_le (neg_le_neg hbound)
  · obtain ⟨rfl, hcan, -⟩ := roundUnits_fin h
    refine ⟨hcan, ?_, fun hpos => ?_, fun hneg => ?_, fun neg m' q' hcan' => ?_⟩
    · have hno : ¬ roundUnits neg' n sh = .inf neg' := by rw [h]; exact nofun
      rw [roundUnits_eq_inf_iff, ← overflowBound_le_iff] at hno
      rw [abs_exactValue]
      exact not_le.mp fun hbound => hno ⟨rfl, hbound⟩
    · cases neg'
      · rfl
      · exact absurd hpos (exactValue_true_nonpos n sh).not_gt
    · cases neg'
      · exact absurd hneg (exactValue_false_nonneg n sh).not_gt
      · rfl
    · rcases Bool.eq_or_eq_not neg neg' with rfl | rfl
      · exact roundUnits_nearest_same h hcan'
      · exact roundUnits_nearest_opposite h

/-! ## Product, sum and difference -/

/-- A signed count of units, as the exact number `fadd64` rounds. -/
theorem exactValue_natAbs (z : Int) : exactValue (decide (z < 0)) z.natAbs 0 = z / 2 ^ 1074 := by
  rcases lt_or_ge z 0 with hz | hz
  · rw [decide_eq_true hz, exactValue_true, Nat.cast_natAbs, abs_of_neg hz, pow_zero, one_mul, Int.cast_neg,
      neg_div, neg_neg]
  · rw [decide_eq_false hz.not_gt, exactValue_false, Nat.cast_natAbs, abs_of_nonneg hz, pow_zero, one_mul]

theorem F64.value_eq_signedUnits (neg : Bool) (m q : Nat) :
    (F64.fin neg m q).value = F64.signedUnits neg m q / 2 ^ 1074 := by
  rw [F64.signedUnits_eq, mul_div_cancel_right₀ _ (pow_ne_zero _ two_ne_zero)]

theorem value_mul_value (n₁ : Bool) (m₁ q₁ : Nat) (n₂ : Bool) (m₂ q₂ : Nat) :
    (F64.fin n₁ m₁ q₁).value * (F64.fin n₂ m₂ q₂).value =
      exactValue (n₁ ^^ n₂) (F64.units m₁ q₁ * F64.units m₂ q₂) 1074 := by
  have hunits : ((F64.units m₁ q₁ * F64.units m₂ q₂ : Nat) : ℚ) = m₁ * 2 ^ q₁ * (m₂ * 2 ^ q₂) := by
    simp only [F64.units]; push_cast; rfl
  have hsign : ((if n₁ ^^ n₂ then -1 else 1 : ℚ)) = (if n₁ then -1 else 1) * (if n₂ then -1 else 1) := by
    cases n₁ <;> cases n₂ <;> simp
  rw [F64.value_fin, F64.value_fin, exactValue, hunits, hsign, mul_mul_mul_comm, div_mul_div_comm]

theorem isRounded_fmul64 (n₁ : Bool) (m₁ q₁ : Nat) (n₂ : Bool) (m₂ q₂ : Nat) :
    IsRounded ((F64.fin n₁ m₁ q₁).value * (F64.fin n₂ m₂ q₂).value) (fmul64 (.fin n₁ m₁ q₁) (.fin n₂ m₂ q₂)) := by
  rw [value_mul_value]
  exact isRounded_roundUnits _ _ _

/-- A zero of either sign is the number 0 rounded. -/
theorem isRounded_zero (neg : Bool) : IsRounded 0 (.fin neg 0 0) := by
  have h := isRounded_roundUnits neg 0 0
  have hzero : exactValue neg 0 0 = 0 := by rw [← abs_eq_zero, abs_exactValue, Nat.cast_zero, zero_div]
  rwa [hzero] at h

theorem isRounded_fadd64 (n₁ : Bool) (m₁ q₁ : Nat) (n₂ : Bool) (m₂ q₂ : Nat) :
    IsRounded ((F64.fin n₁ m₁ q₁).value + (F64.fin n₂ m₂ q₂).value) (fadd64 (.fin n₁ m₁ q₁) (.fin n₂ m₂ q₂)) := by
  rw [F64.value_eq_signedUnits, F64.value_eq_signedUnits, ← add_div, ← Int.cast_add]
  simp only [fadd64]
  split
  · rename_i hz
    rw [hz, Int.cast_zero, zero_div]
    exact isRounded_zero _
  · rw [← exactValue_natAbs]
    exact isRounded_roundUnits _ _ _

theorem isRounded_fsub64 (n₁ : Bool) (m₁ q₁ : Nat) (n₂ : Bool) (m₂ q₂ : Nat) :
    IsRounded ((F64.fin n₁ m₁ q₁).value - (F64.fin n₂ m₂ q₂).value) (fsub64 (.fin n₁ m₁ q₁) (.fin n₂ m₂ q₂)) := by
  rw [sub_eq_add_neg, ← F64.value_neg]
  exact isRounded_fadd64 _ _ _ _ _ _

end Sys2Proof.Machine
end

section
/-! PROOF. The conversions and the order of binary64 (00_scope.md R11), and the statement of all the operations. -/

namespace Sys2Proof.Machine

/-! ## Exact results -/

/-- A significand of 53 bits is below the midpoint past the last one of its grid. -/
theorem lt_midpoint {A E m : Nat} (hm : m < 2 ^ 53) (hE : 0 < E) (hA : A ≤ m * E) : 2 * A < (2 ^ 54 - 1) * E := by
  have hprod : (m + 1) * E ≤ 2 ^ 53 * E := Nat.mul_le_mul_right E hm
  rw [Nat.succ_mul] at hprod
  omega

/-- A canonical value is below the midpoint past the largest finite one. -/
theorem F64.canonical_not_overflow {neg : Bool} {m q : Nat} (h : (F64.fin neg m q).canonical = true) (sh : Nat) :
    2 * (m * 2 ^ q * 2 ^ sh) < (2 ^ 54 - 1) * (2 ^ 2045 * 2 ^ sh) := by
  simp only [F64.canonical, Bool.and_eq_true, decide_eq_true_eq] at h
  obtain ⟨⟨hm, hq⟩, -⟩ := h
  have hgrid : 2 ^ q * 2 ^ sh ≤ 2 ^ 2045 * 2 ^ sh := by gcongr; exact one_le_two
  refine lt_midpoint hm (by positivity) ?_
  rw [mul_assoc]
  exact Nat.mul_le_mul_left m hgrid

/-- A canonical value's units are rounded to themselves. -/
theorem roundUnits_canonical {neg : Bool} {m q : Nat} (h : (F64.fin neg m q).canonical = true) (sh : Nat) :
    ∃ m' q', roundUnits neg (m * 2 ^ q * 2 ^ sh) sh = .fin neg m' q' ∧ m' * 2 ^ q' = m * 2 ^ q := by
  rcases hr : roundUnits neg (m * 2 ^ q * 2 ^ sh) sh with _ | neg' | ⟨neg', m', q'⟩
  · exact absurd hr (roundUnits_ne_nan _ _ _)
  · obtain ⟨-, hbound⟩ := (roundUnits_eq_inf_iff _ _ _ _).mp hr
    exact absurd hbound (F64.canonical_not_overflow h sh).not_ge
  · obtain ⟨rfl, -⟩ := roundUnits_fin hr
    refine ⟨m', q', rfl, ?_⟩
    have hle := (roundUnits_fin_nearest q hr (F64.canonical_lt h)).1
    rw [abs_sub_units, abs_sub_units, sub_self, Int.natAbs_zero, Nat.cast_le, Nat.le_zero, Int.natAbs_eq_zero,
      sub_eq_zero, Nat.cast_inj] at hle
    exact (Nat.eq_of_mul_eq_mul_right (Nat.two_pow_pos sh) hle).symm

/-- A number below 2^53 times a large enough power of two has a canonical form. -/
theorem exists_canonical {x e : Nat} (hx : x < 2 ^ 53) (he : 52 ≤ e) (he' : e ≤ 2045) :
    ∃ m q, (F64.fin false m q).canonical = true ∧ m * 2 ^ q = x * 2 ^ e := by
  by_cases h0 : x = 0
  · subst h0
    exact ⟨0, 0, F64.canonical_zero false, by rw [zero_mul, zero_mul]⟩
  have hlog : Nat.log2 x < 53 := (Nat.log2_lt h0).mpr hx
  refine ⟨x * 2 ^ (52 - Nat.log2 x), Nat.log2 x + (e - 52), ?_, ?_⟩
  · have hlow : 2 ^ Nat.log2 x * 2 ^ (52 - Nat.log2 x) ≤ x * 2 ^ (52 - Nat.log2 x) :=
      Nat.mul_le_mul_right _ (Nat.log2_self_le h0)
    have hhigh : x * 2 ^ (52 - Nat.log2 x) < 2 ^ (Nat.log2 x + 1) * 2 ^ (52 - Nat.log2 x) :=
      Nat.mul_lt_mul_of_pos_right Nat.lt_log2_self (Nat.two_pow_pos _)
    rw [← pow_add] at hlow hhigh
    rw [show Nat.log2 x + (52 - Nat.log2 x) = 52 by omega] at hlow
    rw [show Nat.log2 x + 1 + (52 - Nat.log2 x) = 53 by omega] at hhigh
    simp only [F64.canonical, Bool.and_eq_true, Bool.or_eq_true, decide_eq_true_eq]
    exact ⟨⟨hhigh, by omega⟩, .inl hlow⟩
  · rw [mul_assoc, ← pow_add]
    congr 2
    omega

/-- `f64OfNat` gives a number below 2^53 exactly. -/
theorem f64OfNat_exact {x : Nat} (hx : x < 2 ^ 53) :
    ∃ m q, f64OfNat x = .fin false m q ∧ (f64OfNat x).canonical = true ∧ (f64OfNat x).value = x := by
  obtain ⟨m, q, hcan, hval⟩ := exists_canonical (e := 1074) hx (by omega) (by omega)
  obtain ⟨m', q', hr, hval'⟩ := roundUnits_canonical hcan 0
  rw [hval, pow_zero, mul_one] at hr
  rw [hval] at hval'
  obtain ⟨-, hcan', -⟩ := roundUnits_fin hr
  have hf : f64OfNat x = .fin false m' q' := hr
  rw [hf]
  refine ⟨m', q', rfl, hcan', ?_⟩
  rw [F64.value_congr hval', F64.value_fin, mul_div_cancel_right₀ _ (pow_ne_zero _ two_ne_zero)]
  exact one_mul _

/-- The units of a value that is not negative are the value. -/
theorem F64.value_of_nonneg {neg : Bool} {m q : Nat} (h : 0 ≤ (F64.fin neg m q).value) :
    (F64.fin neg m q).value = (F64.units m q : ℚ) / (2 ^ 1074 : Nat) := by
  rw [← abs_of_nonneg h, F64.abs_value_fin, Nat.cast_pow, Nat.cast_ofNat]

/-- A negative finite value other than zero is below zero. -/
theorem F64.value_neg_of_ne_zero {m : Nat} (hm : m ≠ 0) (q : Nat) : (F64.fin true m q).value < 0 := by
  have hpos : (0 : ℚ) < m * 2 ^ q / 2 ^ 1074 :=
    div_pos (mul_pos (Nat.cast_pos.mpr (Nat.pos_of_ne_zero hm)) (pow_pos two_pos _)) (pow_pos two_pos _)
  rw [F64.value_fin, if_pos rfl, neg_one_mul]
  exact neg_neg_iff_pos.mpr hpos

/-- `floorInt` of a value that is not negative is the largest integer at or below it. -/
theorem floorInt_of_nonneg {neg : Bool} {m q : Nat} (h : 0 ≤ (F64.fin neg m q).value) :
    ∃ b : Nat, floorInt (.fin neg m q) = some b ∧ (b : ℚ) ≤ (F64.fin neg m q).value ∧
      (F64.fin neg m q).value < b + 1 := by
  have hsign : ¬ (neg = true ∧ m ≠ 0) := by
    rintro ⟨rfl, hm⟩
    exact h.not_gt (F64.value_neg_of_ne_zero hm q)
  refine ⟨F64.units m q / 2 ^ 1074, if_neg hsign, ?_⟩
  rw [F64.value_of_nonneg h, ← Nat.floor_div_eq_div (K := ℚ)]
  exact ⟨Nat.floor_le (div_nonneg (Nat.cast_nonneg _) (Nat.cast_nonneg _)), Nat.lt_floor_add_one _⟩

/-! ## Patterns -/

/-- `fromBits64` by the numbers of its fields. -/
theorem fromBits64_eq (w : DWord) : fromBits64 w =
    if w.toNat / 2 ^ 52 % 2 ^ 11 = 2047 then
      (if w.toNat % 2 ^ 52 = 0 then .inf (decide (2 ^ 63 ≤ w.toNat)) else .nan)
    else if w.toNat / 2 ^ 52 % 2 ^ 11 = 0 then .fin (decide (2 ^ 63 ≤ w.toNat)) (w.toNat % 2 ^ 52) 0
    else .fin (decide (2 ^ 63 ≤ w.toNat)) (2 ^ 52 + w.toNat % 2 ^ 52) (w.toNat / 2 ^ 52 % 2 ^ 11 - 1) := by
  have hneg : w.getLsbD 63 = decide (2 ^ 63 ≤ w.toNat) := BitVec.msb_eq_getLsbD_last w ▸ BitVec.msb_eq_decide w
  have he : (w.extractLsb' 52 11).toNat = w.toNat / 2 ^ 52 % 2 ^ 11 := by
    rw [BitVec.extractLsb'_toNat, Nat.shiftRight_eq_div_pow]
  have hf : (w.extractLsb' 0 52).toNat = w.toNat % 2 ^ 52 := by
    rw [BitVec.extractLsb'_toNat, Nat.shiftRight_zero]
  rw [fromBits64, hneg, he, hf]

theorem fromBits64_canonical (w : DWord) : (fromBits64 w).canonical = true := by
  have he : w.toNat / 2 ^ 52 % 2 ^ 11 < 2048 := Nat.mod_lt _ (Nat.two_pow_pos 11)
  have hf : w.toNat % 2 ^ 52 < 2 ^ 52 := Nat.mod_lt _ (Nat.two_pow_pos 52)
  rw [fromBits64_eq]
  generalize w.toNat / 2 ^ 52 % 2 ^ 11 = e at he
  generalize w.toNat % 2 ^ 52 = f at hf
  split
  · split <;> rfl
  · split <;> simp only [F64.canonical, Bool.and_eq_true, Bool.or_eq_true, decide_eq_true_eq]
    · exact ⟨⟨by omega, by omega⟩, .inr trivial⟩
    · exact ⟨⟨by omega, by omega⟩, .inl (by omega)⟩

/-- A pattern gives a canonical value, which stands for the number its fields say, or an infinity or the NaN. -/
theorem fromBits64_spec (w : DWord) :
    let neg := decide (2 ^ 63 ≤ w.toNat)
    let e := w.toNat / 2 ^ 52 % 2 ^ 11
    let f := w.toNat % 2 ^ 52
    (fromBits64 w).canonical = true ∧
    (e = 2047 → fromBits64 w = if f = 0 then .inf neg else .nan) ∧
    (e = 0 → ∃ m q, fromBits64 w = .fin neg m q ∧ m * 2 ^ q = f) ∧
    (0 < e → e < 2047 → ∃ m q, fromBits64 w = .fin neg m q ∧ m * 2 ^ q = (2 ^ 52 + f) * 2 ^ (e - 1)) := by
  intro neg e f
  refine ⟨fromBits64_canonical w, fun h => ?_, fun h => ⟨f, 0, ?_, mul_one f⟩,
    fun h h' => ⟨2 ^ 52 + f, e - 1, ?_, rfl⟩⟩ <;> rw [fromBits64_eq]
  · exact if_pos h
  · rw [if_neg (by omega), if_pos h]
  · rw [if_neg h'.ne, if_neg h.ne']

/-! ## Infinities and the NaN -/

/-- The results of the operations with an infinite operand. -/
theorem infinite_results (n₁ n₂ : Bool) (m q : Nat) :
    fmul64 (.inf n₁) (.inf n₂) = .inf (n₁ != n₂) ∧
    (m ≠ 0 → fmul64 (.inf n₁) (.fin n₂ m q) = .inf (n₁ != n₂) ∧ fmul64 (.fin n₁ m q) (.inf n₂) = .inf (n₁ != n₂)) ∧
    fmul64 (.inf n₁) (.fin n₂ 0 q) = .nan ∧ fmul64 (.fin n₁ 0 q) (.inf n₂) = .nan ∧
    fadd64 (.inf n₁) (.fin n₂ m q) = .inf n₁ ∧ fadd64 (.fin n₁ m q) (.inf n₂) = .inf n₂ ∧
    fadd64 (.inf n₁) (.inf n₁) = .inf n₁ ∧ fadd64 (.inf n₁) (.inf (!n₁)) = .nan ∧
    fsub64 (.inf n₁) (.fin n₂ m q) = .inf n₁ ∧ fsub64 (.fin n₁ m q) (.inf n₂) = .inf (!n₂) ∧
    fsub64 (.inf n₁) (.inf n₁) = .nan ∧ fsub64 (.inf n₁) (.inf (!n₁)) = .inf n₁ := by
  have hopposite : fadd64 (.inf n₁) (.inf (!n₁)) = .nan := if_neg (Bool.not_ne_self n₁).symm
  have hsame : fadd64 (.inf n₁) (.inf n₁) = .inf n₁ := if_pos rfl
  refine ⟨rfl, fun hm => ⟨if_neg hm, if_neg hm⟩, rfl, rfl, rfl, rfl, hsame, hopposite, rfl, rfl,
    hopposite, ?_⟩
  rw [fsub64, fneg64, Bool.not_not]
  exact hsame

/-- A NaN operand gives NaN. -/
theorem nan_results (a : F64) : fmul64 a .nan = .nan ∧ fmul64 .nan a = .nan ∧ fadd64 a .nan = .nan ∧
    fadd64 .nan a = .nan ∧ fsub64 a .nan = .nan ∧ fsub64 .nan a = .nan := by
  cases a <;> exact ⟨rfl, rfl, rfl, rfl, rfl, rfl⟩

/-- The infinities are the ends of the order. -/
theorem flt64_inf (n : Bool) (m q : Nat) :
    flt64 (.inf true) (.fin n m q) = true ∧ flt64 (.fin n m q) (.inf false) = true ∧
    flt64 (.inf true) (.inf false) = true ∧ flt64 (.inf false) (.fin n m q) = false ∧
    flt64 (.fin n m q) (.inf true) = false ∧ flt64 (.inf n) (.inf n) = false ∧
    flt64 (.inf false) (.inf true) = false :=
  ⟨rfl, rfl, rfl, rfl, rfl, Bool.and_not_self n, rfl⟩

/-- A NaN is below nothing and above nothing. -/
theorem flt64_nan (a : F64) : flt64 .nan a = false ∧ flt64 a .nan = false := by
  cases a <;> exact ⟨rfl, rfl⟩

/-- On finite values `flt64` is the order of the numbers. -/
theorem flt64_fin_iff (n₁ : Bool) (m₁ q₁ : Nat) (n₂ : Bool) (m₂ q₂ : Nat) :
    flt64 (.fin n₁ m₁ q₁) (.fin n₂ m₂ q₂) = true ↔ (F64.fin n₁ m₁ q₁).value < (F64.fin n₂ m₂ q₂).value :=
  decide_eq_true_iff.trans (F64.signedUnits_lt_iff n₁ m₁ q₁ n₂ m₂ q₂)

/-- Settles O60, operation by operation. -/
theorem binary64Operations : Obligations.Binary64Operations := by
  refine ⟨fun n₁ m₁ q₁ n₂ m₂ q₂ => ⟨?_, ?_, ?_⟩, fun x hx => f64OfNat_exact hx, infinite_results, nan_results,
    flt64_fin_iff, flt64_inf, flt64_nan, fun n m q h => floorInt_of_nonneg h, fromBits64_spec⟩
  · exact isRounded_fmul64 n₁ m₁ q₁ n₂ m₂ q₂
  · exact isRounded_fadd64 n₁ m₁ q₁ n₂ m₂ q₂
  · exact isRounded_fsub64 n₁ m₁ q₁ n₂ m₂ q₂

end Sys2Proof.Machine
end

section
/-! PROOF. The updates that what is fetched makes, said once: each bus access and each beat is one of them. The invariant and
the frame buffer's statement are proved for the updates. -/

namespace Sys2Proof.Machine

theorem streamTurn_cons {s : State} {a : Beat} {more : List Beat} (hb : s.beats = a :: more) :
    streamTurn s = .run (decodeBeat a) { s with beats := offeredAfter s a more } := by
  simp only [streamTurn, hb]

theorem nextTurn_reset {s : State} {rest : List Agent} (hs : s.sched = .reset :: rest) :
    nextTurn s = .quiet (resetEvent { s with sched := rest }) := by
  simp only [nextTurn, hs]

/-- The updates that bus accesses and beats make. No read shows the frame buffer (10_state.md R31). -/
inductive FetchedUpdate : (State → State) → Prop where
  | nothing : FetchedUpdate id
  | cmdError : FetchedUpdate raiseCmdError
  | read (value : State → Word) (hvalue : ∀ s b, value { s with fbuf := b } = value s) :
    FetchedUpdate fun s => returnData s (value s)
  | readFramesLo : FetchedUpdate readFramesLo
  | init : FetchedUpdate commandInit
  | start : FetchedUpdate commandStart
  | capEn (e : Bool) : FetchedUpdate fun s => inInit s fun t => { t with capEn := e }
  | cap (half : DWord → DWord) : FetchedUpdate fun s => inInit s fun t => { t with cap := half t.cap }
  | selectGrid (g : Grid) : FetchedUpdate fun s => inInit s (selectGrid g)
  | coefLo (wdata : Word) : FetchedUpdate fun s => inInit s fun t => { t with coefLoHold := wdata }
  | coefHi (wdata : Word) : FetchedUpdate fun s => inInit s (commitCoefficient wdata)
  | latch (wdata : Word) : FetchedUpdate (latchReadback wdata)
  | byte (data : Byte) : FetchedUpdate fun s => whenAccepted s (acceptByte data)
  | lastByte (data : Byte) : FetchedUpdate fun s => whenAccepted s (acceptLastByte data)
  | eos : FetchedUpdate fun s => whenAccepted s endOfStream

/-- The operation completes, and what it does to any state is one of the updates. -/
def Updates (i : Instr) : Prop := ∃ f, FetchedUpdate f ∧ ∀ s, exec i s = .next (f s)

theorem updates_wrCmd (w : Word) : Updates (.wrCmd w) := by
  by_cases h0 : w = 0#32
  · subst h0; exact ⟨_, .nothing, fun _ => rfl⟩
  by_cases h1 : w = 1#32
  · subst h1; exact ⟨_, .init, fun _ => rfl⟩
  by_cases h2 : w = 2#32
  · subst h2; exact ⟨_, .start, fun _ => rfl⟩
  refine ⟨_, .cmdError, fun s => ?_⟩
  have hw : runCommand w s = raiseCmdError s := by
    rcases runCommand_cases w s with ⟨h, -⟩ | ⟨h, -⟩ | ⟨h, -⟩ | ⟨-, -, -, h⟩
    · exact absurd h h0
    · exact absurd h h1
    · exact absurd h h2
    · exact h
  exact congrArg Host.Outcome.next hw

theorem updates_wrCoefSel (w : Word) : Updates (.wrCoefSel w) := by
  cases hg : gridOperand w with
  | none => exact ⟨_, .cmdError, fun s => by simp only [exec, execWrCoefSel, hg]⟩
  | some g => exact ⟨_, .selectGrid g, fun s => by simp only [exec, execWrCoefSel, hg]⟩

theorem updates_writeInstr (r : Reg) (w : Word) : Updates (writeInstr r w) := by
  cases r with
  | cmd => exact updates_wrCmd w
  | config => exact ⟨_, .capEn (capEnOperand w), fun _ => rfl⟩
  | capLo => exact ⟨_, .cap fun c => joinWords (highWord c) w, fun _ => rfl⟩
  | capHi => exact ⟨_, .cap fun c => joinWords w (lowWord c), fun _ => rfl⟩
  | coefSel => exact updates_wrCoefSel w
  | coefLo => exact ⟨_, .coefLo w, fun _ => rfl⟩
  | coefHi => exact ⟨_, .coefHi w, fun _ => rfl⟩
  | rdCtrl => exact ⟨_, .latch w, fun _ => rfl⟩
  | id | status | framesLo | framesHi | fill | coefStat | rdLo | rdHi => exact ⟨_, .cmdError, fun _ => rfl⟩

theorem updates_readInstr (r : Reg) : Updates (readInstr r) := by
  cases r with
  | id => exact ⟨_, .read (fun _ => 0x48585401#32) fun _ _ => rfl, fun _ => rfl⟩
  | cmd | coefLo | coefHi => exact ⟨_, .read (fun _ => 0x00000000#32) fun _ _ => rfl, fun _ => rfl⟩
  | status => exact ⟨_, .read statusWord fun _ _ => rfl, fun _ => rfl⟩
  | config => exact ⟨_, .read (fun s => flagWord s.capEn) fun _ _ => rfl, fun _ => rfl⟩
  | capLo => exact ⟨_, .read (fun s => lowWord s.cap) fun _ _ => rfl, fun _ => rfl⟩
  | capHi => exact ⟨_, .read (fun s => highWord s.cap) fun _ _ => rfl, fun _ => rfl⟩
  | framesLo => exact ⟨_, .readFramesLo, fun _ => rfl⟩
  | framesHi => exact ⟨_, .read (fun s => s.framesLatchHi) fun _ _ => rfl, fun _ => rfl⟩
  | fill => exact ⟨_, .read fillWord fun _ _ => rfl, fun _ => rfl⟩
  | coefSel => exact ⟨_, .read coefSelWord fun _ _ => rfl, fun _ => rfl⟩
  | coefStat => exact ⟨_, .read coefStatWord fun _ _ => rfl, fun _ => rfl⟩
  | rdCtrl => exact ⟨_, .read rdCtrlWord fun _ _ => rfl, fun _ => rfl⟩
  | rdLo => exact ⟨_, .read (fun s => lowWord s.rdBuf) fun _ _ => rfl, fun _ => rfl⟩
  | rdHi => exact ⟨_, .read (fun s => highWord s.rdBuf) fun _ _ => rfl, fun _ => rfl⟩

/-- What a bus access does. -/
theorem updates_decodeBus (a : BusAccess) : Updates (decodeBus a) := by
  rcases decodeBus_cases a with h | h <;> rw [h]
  · exact updates_writeInstr _ _
  · exact updates_readInstr _

/-- What a beat does. -/
theorem updates_decodeBeat (b : Beat) : Updates (decodeBeat b) := by
  rcases decodeBeat_cases b with h | h | h | h <;> rw [h]
  · exact ⟨_, .nothing, fun s => congrArg Host.Outcome.next (ite_self s)⟩
  · exact ⟨_, .byte b.data, fun _ => rfl⟩
  · exact ⟨_, .lastByte b.data, fun _ => rfl⟩
  · exact ⟨_, .eos, fun _ => rfl⟩

end Sys2Proof.Machine
end

section
/-! PROOF. The consistency of `Inv`: it holds at reset and every update of a step keeps it. -/

namespace Sys2Proof.Machine

theorem Build.ok_widths {b : Build} (h : b.ok = true) : b.sumW ≤ 64 ∧ b.histW ≤ 64 := by
  simp only [Build.ok, Bool.and_eq_true, decide_eq_true_eq] at h
  exact ⟨h.1.1.2, h.2⟩

/-- Reading one grid's value after writing one. -/
theorem gridGet_gridSet {α : Type} (a : PerGrid α) (g g' : Grid) (v : α) :
    gridGet (gridSet a g v) g' = if g' = g then v else gridGet a g' := by
  cases g <;> cases g' <;> rfl

/-- A scatter-add keeps cells within their width. -/
theorem scatterAdd_get_lt {w n : Nat} (hw : w ≤ 64) {u : List (Nat × Nat)} {c : CellList DWord} (o : Bool)
    (hc : Cells.Canonical 0#64 n c) (hu : ∀ e ∈ u, e.1 < n) (hlt : ∀ a, (Cells.get 0#64 c a).toNat < 2 ^ w) (a : Nat) :
    (Cells.get 0#64 (scatterAdd w u (c, o)).1 a).toNat < 2 ^ w := by
  by_cases ha : updateTouches u a
  · rw [scatterAdd_get_touched hw u c o hc hu ha]
    exact Nat.mod_lt _ (Nat.two_pow_pos w)
  · rw [scatterAdd_get_untouched u c o hc hu ha]
    exact hlt a

theorem sumAt_ingestSpatialFrame_lt {s : State} (hw : s.build.sumW ≤ 64) (hc : Cells.Canonical 0#64 6400 s.sum)
    (hlt : ∀ p, (sumAt s p).toNat < 2 ^ s.build.sumW) (p : Nat) :
    (sumAt (ingestSpatialFrame s) p).toNat < 2 ^ s.build.sumW := by
  unfold ingestSpatialFrame
  exact scatterAdd_get_lt hw false hc (spatialUpdates_lt s) hlt p

theorem rawhistAt_ingestRawHistogram_lt {s : State} (hw : s.build.histW ≤ 64) (hc : Cells.Canonical 0#64 8192 s.rawhist)
    (hlt : ∀ b, (rawhistAt s b).toNat < 2 ^ s.build.histW) (b : Nat) :
    (rawhistAt (ingestRawHistogram s) b).toNat < 2 ^ s.build.histW := by
  unfold ingestRawHistogram
  exact scatterAdd_get_lt hw false hc (rawHistUpdates_lt s) hlt b

theorem calhistAt_ingestCalHistogram_lt {s : State} (hw : s.build.histW ≤ 64) (hc : Cells.Canonical 0#64 1000 s.calhist)
    (hlt : ∀ b, (calhistAt s b).toNat < 2 ^ s.build.histW) (b : Nat) :
    (calhistAt (ingestCalHistogram s) b).toNat < 2 ^ s.build.histW := by
  unfold ingestCalHistogram
  exact scatterAdd_get_lt hw false hc (calHistUpdates_lt s) hlt b

namespace Inv

/-! ## Reset -/

/-- The reset values are consistent, whatever the build and the agents' fields. -/
theorem of_reset {t : State} (hb : t.build.ok = true)
    (ht : t = { State.reset with
      build := t.build, rdata := t.rdata, draws := t.draws, resets := t.resets, busQueue := t.busQueue,
      beats := t.beats, sched := t.sched }) : Inv t := by
  rw [ht]
  exact {
    build := hb
    arrays := Memory.wf_reset
    sumWidth := fun _ => Nat.two_pow_pos _
    rawWidth := fun _ => Nat.two_pow_pos _
    calWidth := fun _ => Nat.two_pow_pos _
    fillBound := Nat.succ_pos _
    fillIdle := fun _ => rfl
    recordBytes := fun j hj => absurd hj (Nat.not_lt_zero j)
    cntBound := fun g => by cases g <;> exact Nat.zero_le _
    ovfFull := fun g h => by cases g <;> cases h
    loaded := fun g i hi => by cases g <;> exact absurd hi (Nat.not_lt_zero i)
    tableReady := fun h => absurd rfl h
    cause := ⟨fun _ h => (by cases h), fun _ => rfl⟩
    initClear := fun _ => ⟨rfl, rfl, rfl, rfl, rfl, rfl, rfl⟩
    capAhead := fun h => by cases h
    capReached := fun h => by cases h
    wiresQuiet := rfl }

variable {s : State} (h : Inv s)
include h

theorem resetEvent : Inv (resetEvent s) := of_reset h.build rfl

/-! ## Bus accesses -/

/-- `Inv` says nothing of these fields. -/
theorem congr {t : State}
    (ht : t = { s with
      framesLatchHi := t.framesLatchHi, coefSel := t.coefSel, coefLoHold := t.coefLoHold, cfgErr := t.cfgErr,
      cmdErr := t.cmdErr, rdSel := t.rdSel, rdIdx := t.rdIdx, rdBuf := t.rdBuf, rdata := t.rdata, draws := t.draws,
      resets := t.resets, busQueue := t.busQueue, beats := t.beats, sched := t.sched }) : Inv t := by
  rw [ht]
  exact { h with }

theorem raiseCmdError : Inv (raiseCmdError s) := h.congr rfl

theorem inInit {f : State → State} (hf : s.driver = .init → Inv (f s)) : Inv (inInit s f) := by
  by_cases hd : s.driver = .init
  · rw [inInit_of_init hd]; exact hf hd
  · rw [inInit_of_not_init hd]; exact h.raiseCmdError

theorem latchReadback (wdata : Word) : Inv (latchReadback wdata s) := by
  rw [latchReadback_writes]
  exact h.congr rfl

/-- Before the start no frame is counted and no cap has been reached. -/
theorem setCap (hd : s.driver = .init) (e : Bool) (c : DWord) : Inv { s with capEn := e, cap := c } :=
  have hcause : s.stopCause = .none := h.cause.mpr (hd ▸ Driver.noConfusion)
  { h with
    capAhead := fun hr => absurd (hd.symm.trans hr) Driver.noConfusion
    capReached := fun hc => absurd (hcause.symm.trans hc) StopCause.noConfusion }

theorem selectGrid (hd : s.driver = .init) (g : Grid) : Inv (selectGrid g s) :=
  { h with
    cntBound := fun g' => by
      rw [selectGrid_cnt, gridGet_gridSet]
      split
      · exact Nat.zero_le _
      · exact h.cntBound g'
    ovfFull := fun g' => by
      rw [selectGrid_cnt, selectGrid_ovf, gridGet_gridSet, gridGet_gridSet]
      split
      · exact fun hf => absurd hf Bool.false_ne_true
      · exact h.ovfFull g'
    loaded := fun g' i => by
      rw [selectGrid_cnt, selectGrid_coef, gridGet_gridSet]
      split
      · exact fun hi => absurd hi (Nat.not_lt_zero i)
      · exact h.loaded g' i
    tableReady := fun hne => absurd hd hne }

/-- The next coefficient of a grid that is not full. -/
theorem storeCoefficient (hd : s.driver = .init) {g : Grid} (hn : gridGet s.cnt g < 6400) (v : DWord)
    (hw : Memory.wf { s with coef := gridSet s.coef g (Cells.insert (gridGet s.coef g) (place s (gridGet s.cnt g)) v) }) :
    Inv { s with
      coef := gridSet s.coef g (Cells.insert (gridGet s.coef g) (place s (gridGet s.cnt g)) v)
      cnt := gridSet s.cnt g (gridGet s.cnt g + 1) } :=
  { h with
    arrays := hw
    cntBound := fun g' => by
      rw [gridGet_gridSet]
      split
      · exact hn
      · exact h.cntBound g'
    ovfFull := fun g' ho => by
      rw [gridGet_gridSet]
      have hfull := h.ovfFull g' ho
      rw [if_neg]
      · exact hfull
      · rintro rfl; omega
    loaded := fun g' i => by
      rw [gridGet_gridSet, gridGet_gridSet, place_eq s hn]
      split
      · subst_vars
        intro hi
        rw [Cells.find_insert]
        split
        · rfl
        · rename_i hne
          have : i ≠ gridGet s.cnt g' := fun he => hne (he ▸ rfl)
          exact h.loaded g' i (by omega)
      · exact h.loaded g' i
    tableReady := fun hne => absurd hd hne }

/-- A value past the 6400th of a grid. -/
theorem setOvf (hd : s.driver = .init) {g : Grid} (hn : ¬ gridGet s.cnt g < 6400) :
    Inv { s with ovf := gridSet s.ovf g true } :=
  { h with
    ovfFull := fun g' => by
      rw [gridGet_gridSet]
      split
      · subst_vars
        exact fun _ => Nat.le_antisymm (h.cntBound g') (Nat.le_of_not_lt hn)
      · exact h.ovfFull g'
    tableReady := fun hne => absurd hd hne }

theorem commitCoefficient (hd : s.driver = .init) (wdata : Word) : Inv (commitCoefficient wdata s) := by
  have hw := Memory.wf_commitCoefficient h.arrays wdata
  unfold Machine.commitCoefficient at *
  by_cases hn : gridGet s.cnt s.coefSel < 6400
  · simp only [if_pos hn] at *
    exact h.storeCoefficient hd hn _ (Memory.wf_congr hw rfl rfl rfl rfl rfl)
  · simp only [if_neg hn]
    exact h.setOvf hd hn

/-! ## Commands -/

theorem commandInit : Inv (commandInit s) := by
  have hw := Memory.wf_commandInit h.arrays
  unfold Machine.commandInit at *
  split
  · exact h.raiseCmdError
  · rename_i hd
    rw [if_neg hd] at hw
    exact { h with
      arrays := hw
      sumWidth := fun _ => Nat.two_pow_pos _
      rawWidth := fun _ => Nat.two_pow_pos _
      calWidth := fun _ => Nat.two_pow_pos _
      fillBound := Nat.succ_pos _
      fillIdle := fun _ => rfl
      recordBytes := fun j hj => absurd hj (Nat.not_lt_zero j)
      tableReady := fun hne => absurd rfl hne
      cause := ⟨fun _ => Driver.noConfusion, fun _ => rfl⟩
      initClear := fun _ => ⟨rfl, rfl, rfl, rfl, rfl, rfl, rfl⟩
      capAhead := fun hr => Driver.noConfusion hr
      capReached := fun hc => StopCause.noConfusion hc }

/-- START with a cap of zero. -/
theorem startAtCap (hd : s.driver = .init) (hr : coefReady s = true) (he : s.capEn = true) (hc : s.cap = 0#64) :
    Inv { s with cfgErr := false, driver := .stopped, stopCause := .cap } :=
  have hfill := h.fillIdle (hd ▸ Driver.noConfusion)
  have hframes := (h.initClear hd).1
  { h with
    fillIdle := fun _ => hfill
    tableReady := fun _ => hr
    cause := ⟨fun hn => StopCause.noConfusion hn, fun hne => absurd rfl hne⟩
    initClear := fun hi => Driver.noConfusion hi
    capAhead := fun hi => Driver.noConfusion hi
    capReached := fun _ => ⟨he, hframes.trans hc.symm⟩ }

/-- START with no cap or with one that is ahead. -/
theorem startRunning (hd : s.driver = .init) (hr : coefReady s = true) (hc : s.capEn = true → s.cap ≠ 0#64) :
    Inv { s with cfgErr := false, driver := .running } :=
  have hframes := (h.initClear hd).1
  have hcause : s.stopCause = .none := h.cause.mpr (hd ▸ Driver.noConfusion)
  { h with
    fillIdle := fun hne => absurd rfl hne
    tableReady := fun _ => hr
    cause := ⟨fun _ => Driver.noConfusion, fun _ => hcause⟩
    initClear := fun hi => Driver.noConfusion hi
    capAhead := fun _ he => by
      have hpos : s.cap.toNat ≠ 0 := fun h0 => hc he (BitVec.eq_of_toNat_eq h0)
      change s.frames.toNat < s.cap.toNat
      rw [hframes]
      exact Nat.pos_of_ne_zero hpos }

theorem commandStart : Inv (commandStart s) := by
  unfold Machine.commandStart
  by_cases hd : s.driver = .init
  · rw [if_neg (not_not_intro hd)]
    by_cases hr : coefReady s = true
    · rw [if_neg (by simp [hr])]
      split
      · rename_i hcap
        obtain ⟨he, hc⟩ : s.capEn = true ∧ s.cap = 0#64 := by simpa using hcap
        exact h.startAtCap hd hr he hc
      · rename_i hcap
        exact h.startRunning hd hr fun he hc => hcap (by simp [he, hc])
    · rw [if_pos (by simp [hr])]
      exact h.congr rfl
  · rw [if_pos hd]
    exact h.raiseCmdError

/-! ## Beats -/

theorem whenAccepted {f : State → State} (hf : s.driver = .running → Inv (f s)) : Inv (whenAccepted s f) := by
  by_cases hd : s.driver = .running
  · rw [whenAccepted_running hd]; exact hf hd
  · rw [whenAccepted_held hd]; exact h

theorem storeByte (data : Byte) : Inv { s with fbuf := Cells.insert s.fbuf s.fill data } :=
  { h with
    arrays := Memory.wf_storeByte h.arrays h.fillBound data
    recordBytes := fun j hj => by
      rw [Cells.find_insert]
      split
      · rfl
      · exact h.recordBytes j hj }

/-- The byte at `fill` is in the buffer and the record goes on. -/
theorem countByte (hd : s.driver = .running) (hf : s.fill ≠ 12799) (hbyte : (Cells.find s.fbuf s.fill).isSome = true) :
    Inv { s with fill := s.fill + 1 } :=
  { h with
    fillBound := by have := h.fillBound; change s.fill + 1 < 12800; omega
    fillIdle := fun hne => absurd hd hne
    recordBytes := fun j hj => by
      rcases Nat.lt_succ_iff_lt_or_eq.mp hj with hlt | rfl
      · exact h.recordBytes j hlt
      · exact hbyte }

theorem sumWidth_commitFrame (p : Nat) : (sumAt (commitFrame s) p).toNat < 2 ^ s.build.sumW := by
  rw [sumAt, commitFrame_sum]
  have hw := (Build.ok_widths h.build).1
  exact sumAt_ingestSpatialFrame_lt (s := reorderRecord s) hw h.arrays.1 h.sumWidth p

theorem rawWidth_commitFrame (b : Nat) : (rawhistAt (commitFrame s) b).toNat < 2 ^ s.build.histW := by
  rw [rawhistAt, commitFrame_rawhist]
  exact rawhistAt_ingestRawHistogram_lt (Build.ok_widths h.build).2 h.arrays.2.1 h.rawWidth b

theorem calWidth_commitFrame (b : Nat) : (calhistAt (commitFrame s) b).toNat < 2 ^ s.build.histW := by
  have hb : (calibratedRecord s).build = s.build := by simp [calibratedRecord]
  have hc : (calibratedRecord s).calhist = s.calhist := by simp [calibratedRecord]
  rw [calhistAt, commitFrame_calhist_eq, ← hb]
  refine calhistAt_ingestCalHistogram_lt ?_ ?_ ?_ b
  · rw [hb]; exact (Build.ok_widths h.build).2
  · rw [hc]; exact h.arrays.2.2.1
  · intro b; rw [calhistAt, hc, hb]; exact h.calWidth b

/-- A commit up to its count: the accumulators have taken a frame in, and the next record begins. -/
theorem ingested (hd : s.driver = .running) {sum rawhist calhist : CellList DWord} {o₁ o₂ o₃ : Bool}
    (c₁ : Cells.Canonical 0#64 6400 sum) (c₂ : Cells.Canonical 0#64 8192 rawhist)
    (c₃ : Cells.Canonical 0#64 1000 calhist)
    (h₁ : ∀ p, (Cells.get 0#64 sum p).toNat < 2 ^ s.build.sumW)
    (h₂ : ∀ b, (Cells.get 0#64 rawhist b).toNat < 2 ^ s.build.histW)
    (h₃ : ∀ b, (Cells.get 0#64 calhist b).toNat < 2 ^ s.build.histW) :
    Inv { s with
      sum := sum, sumOvf := o₁, rawhist := rawhist, rhOvf := o₂, calhist := calhist, chOvf := o₃,
      fill := 0, wires := Wires.empty } :=
  { h with
    arrays := ⟨c₁, c₂, c₃, h.arrays.2.2.2⟩
    sumWidth := h₁
    rawWidth := h₂
    calWidth := h₃
    fillBound := Nat.succ_pos _
    fillIdle := fun _ => rfl
    recordBytes := fun j hj => absurd hj (Nat.not_lt_zero j)
    initClear := fun hi => absurd (hd.symm.trans hi) Driver.noConfusion
    wiresQuiet := rfl }

/-- The frame that reaches the cap is counted (42_accumulator.md R165). -/
theorem countAtCap (hd : s.driver = .running) (hf : s.fill = 0) (he : s.capEn = true) (hc : s.frames + 1#64 = s.cap) :
    Inv { s with frames := s.frames + 1#64, driver := .stopped, stopCause := .cap } :=
  { h with
    fillIdle := fun _ => hf
    tableReady := fun _ => h.tableReady (hd ▸ Driver.noConfusion)
    cause := ⟨fun hn => StopCause.noConfusion hn, fun hne => absurd rfl hne⟩
    initClear := fun hi => Driver.noConfusion hi
    capAhead := fun hi => Driver.noConfusion hi
    capReached := fun _ => ⟨he, hc⟩ }

/-- A frame that does not reach the cap is counted, and the cap is still ahead (42_accumulator.md R165). -/
theorem countBelowCap (hd : s.driver = .running) (hc : s.capEn = true → s.frames + 1#64 ≠ s.cap) :
    Inv { s with frames := s.frames + 1#64 } :=
  have hcause : s.stopCause = .none := h.cause.mpr (hd ▸ Driver.noConfusion)
  { h with
    initClear := fun hi => absurd (hd.symm.trans hi) Driver.noConfusion
    capAhead := fun _ he => by
      have hlt := h.capAhead hd he
      have hne := hc he
      change (s.frames + 1#64).toNat < s.cap.toNat
      bv_omega
    capReached := fun hs => absurd (hcause.symm.trans hs) StopCause.noConfusion }

theorem commitFrame (hd : s.driver = .running) : Inv (commitFrame s) := by
  obtain ⟨c₁, c₂, c₃, -⟩ := Memory.wf_commitFrame h.arrays
  have h₁ := h.sumWidth_commitFrame
  have h₂ := h.rawWidth_commitFrame
  have h₃ := h.calWidth_commitFrame
  rw [commitFrame_writes, commitFrame_driver, commitFrame_stopCause]
  unfold sumAt at h₁
  unfold rawhistAt at h₂
  unfold calhistAt at h₃
  generalize (Machine.commitFrame s).sum = sum, (Machine.commitFrame s).rawhist = rawhist,
    (Machine.commitFrame s).calhist = calhist, (Machine.commitFrame s).sumOvf = o₁,
    (Machine.commitFrame s).rhOvf = o₂, (Machine.commitFrame s).chOvf = o₃ at *
  have hi := h.ingested hd (o₁ := o₁) (o₂ := o₂) (o₃ := o₃) c₁ c₂ c₃ h₁ h₂ h₃
  by_cases hstop : s.capEn = true ∧ s.frames + 1#64 = s.cap
  · obtain ⟨he, hc⟩ := hstop
    rw [if_pos ⟨he, hc⟩, if_pos ⟨he, hc⟩]
    exact hi.countAtCap hd rfl he hc
  · rw [if_neg hstop, if_neg hstop]
    exact hi.countBelowCap hd fun he hc => hstop ⟨he, hc⟩

/-- The stream ends while RUNNING. -/
theorem endOfStream (hd : s.driver = .running) : Inv (endOfStream s) :=
  { h with
    fillBound := Nat.succ_pos _
    fillIdle := fun _ => rfl
    recordBytes := fun j hj => absurd hj (Nat.not_lt_zero j)
    tableReady := fun _ => h.tableReady (hd ▸ Driver.noConfusion)
    cause := ⟨fun hn => StopCause.noConfusion hn, fun hne => absurd rfl hne⟩
    initClear := fun hi => Driver.noConfusion hi
    capAhead := fun hi => Driver.noConfusion hi
    capReached := fun hc => StopCause.noConfusion hc }

theorem acceptByte (hd : s.driver = .running) (data : Byte) : Inv (acceptByte data s) := by
  have hs := h.storeByte data
  rcases acceptByte_cases data s with ⟨hf, ht⟩ | ⟨-, ht⟩ <;> rw [ht]
  · exact hs.countByte hd hf (by rw [Cells.find_insert, if_pos rfl]; rfl)
  · exact hs.commitFrame hd

theorem acceptLastByte (hd : s.driver = .running) (data : Byte) : Inv (acceptLastByte data s) := by
  have ht := h.acceptByte hd data
  unfold Machine.acceptLastByte
  by_cases hr : (Machine.acceptByte data s).driver = .running
  · exact if_pos hr ▸ ht.endOfStream hr
  · exact if_neg hr ▸ ht

/-! ## Steps -/

theorem of_fetchedUpdate {f : State → State} (hf : FetchedUpdate f) : Inv (f s) := by
  cases hf with
  | nothing => exact h
  | cmdError => exact h.raiseCmdError
  | read value hvalue => exact h.congr rfl
  | readFramesLo => exact h.congr rfl
  | init => exact h.commandInit
  | start => exact h.commandStart
  | capEn e => exact h.inInit fun hd => h.setCap hd e s.cap
  | cap half => exact h.inInit fun hd => h.setCap hd s.capEn (half s.cap)
  | selectGrid g => exact h.inInit fun hd => h.selectGrid hd g
  | coefLo wdata => exact h.inInit fun _ => h.congr rfl
  | coefHi wdata => exact h.inInit fun hd => h.commitCoefficient hd wdata
  | latch wdata => exact h.latchReadback wdata
  | byte data => exact h.whenAccepted fun hd => h.acceptByte hd data
  | lastByte data => exact h.whenAccepted fun hd => h.acceptLastByte hd data
  | eos => exact h.whenAccepted fun hd => h.endOfStream hd

theorem of_exec {i : Instr} {t : State} (hi : Updates i) (ht : exec i s = .next t) : Inv t := by
  obtain ⟨f, hf, he⟩ := hi
  obtain rfl : f s = t := Host.Outcome.next.inj ((he s).symm.trans ht)
  exact h.of_fetchedUpdate hf

end Inv

/-- Settles O58: a step passes a turn, resets the block, or makes one of the updates of what is fetched. -/
theorem invariantKept : Obligations.InvariantKept := by
  intro s t h hstep
  rcases step_cases hstep with ⟨sched, rfl⟩ | ⟨rest, rfl⟩ | ⟨rest, a, more, -, he⟩ | ⟨rest, b, more, -, he⟩
  · exact h.congr rfl
  · exact Inv.resetEvent (s := { s with sched := rest }) (h.congr rfl)
  · exact Inv.of_exec (s := { s with sched := rest, busQueue := more }) (h.congr rfl) (updates_decodeBus a) he
  · exact Inv.of_exec (s := { s with sched := rest, beats := offeredAfter s b more }) (h.congr rfl) (updates_decodeBeat b) he

/-- Settles O57: reset lists nothing and counts nothing. -/
theorem invariantAtReset : Obligations.InvariantAtReset :=
  ⟨Inv.of_reset rfl rfl, Conserved.of_clear rfl rfl rfl rfl⟩

/-- Settles O11. An entry of the table is the one that reset 0 drew. -/
theorem resetStateValues : Obligations.ResetStateValues := by
  refine ⟨rfl, rfl, rfl, rfl, rfl, rfl, fun g => ?_, rfl, rfl, fun _ => rfl, fun _ => rfl, fun _ => rfl, rfl, rfl, rfl,
    rfl, rfl, rfl, rfl, rfl, rfl, fun g p => ⟨0, ?_⟩, rfl, rfl, rfl, rfl⟩
  · cases g <;> exact ⟨rfl, rfl⟩
  · cases g <;> rfl

end Sys2Proof.Machine
end

section
/-! PROOF. The frame buffer at or above `fill` is unobservable (10_state.md R31): every update of a step takes states that
agree below `fill` to states that agree below `fill`. -/

namespace Sys2Proof.Machine

/-- `s` with another frame buffer. -/
def withBuffer (b : CellList Byte) (s : State) : State := { s with fbuf := b }

/-- `u` is `s` but for the frame buffer at or above `fill`. -/
def AgreeBelowFill (s u : State) : Prop :=
  ∃ b, u = withBuffer b s ∧ ∀ j, j < s.fill → Cells.find b j = Cells.find s.fbuf j

theorem AgreeBelowFill.refl (s : State) : AgreeBelowFill s s := ⟨s.fbuf, rfl, fun _ _ => rfl⟩

/-- An update that keeps agreement below `fill`. -/
def KeepsAgreement (f : State → State) : Prop :=
  ∀ s u : State, AgreeBelowFill s u → AgreeBelowFill (f s) (f u)

/-- An update that neither reads nor writes the frame buffer, and does not raise `fill`. -/
structure BufferBlind (f : State → State) : Prop where
  commutes : ∀ s b, f (withBuffer b s) = withBuffer b (f s)
  fill_le : ∀ s, (f s).fill ≤ s.fill

namespace BufferBlind

theorem keepsAgreement {f : State → State} (h : BufferBlind f) : KeepsAgreement f := by
  rintro s _ ⟨b, rfl, hb⟩
  have hs : (f s).fbuf = s.fbuf := (congrArg State.fbuf (h.commutes s s.fbuf) :)
  refine ⟨b, h.commutes s b, fun j hj => ?_⟩
  rw [hs]
  exact hb j (Nat.lt_of_lt_of_le hj (h.fill_le s))

/-- An update that leaves `fill` alone. -/
theorem of_fill_eq {f : State → State} (hc : ∀ s b, f (withBuffer b s) = withBuffer b (f s))
    (hf : ∀ s, (f s).fill = s.fill) : BufferBlind f := ⟨hc, fun s => (hf s).le⟩

/-! ## Bus accesses -/

theorem raiseCmdError : BufferBlind raiseCmdError := .of_fill_eq (fun _ _ => rfl) fun _ => rfl

theorem inInit {f : State → State} (h : BufferBlind f) : BufferBlind fun s => inInit s f where
  commutes s b := by
    by_cases hd : s.driver = .init
    · simp only [inInit_of_init hd, inInit_of_init (s := withBuffer b s) hd]
      exact h.commutes s b
    · simp only [inInit_of_not_init hd, inInit_of_not_init (s := withBuffer b s) hd]
      rfl
  fill_le s := by
    by_cases hd : s.driver = .init
    · simp only [inInit_of_init hd]
      exact h.fill_le s
    · simp only [inInit_of_not_init hd]
      exact Nat.le_refl _

theorem commandInit : BufferBlind commandInit where
  commutes s b := by
    unfold Machine.commandInit
    rw [apply_ite (withBuffer b)]
    rfl
  fill_le s := by
    unfold Machine.commandInit
    split
    · exact Nat.le_refl _
    · exact Nat.zero_le _

theorem commandStart : BufferBlind commandStart where
  commutes s b := by
    unfold Machine.commandStart
    rw [apply_ite (withBuffer b), apply_ite (withBuffer b), apply_ite (withBuffer b)]
    rfl
  fill_le s := by
    unfold Machine.commandStart
    split
    · exact Nat.le_refl _
    · split
      · exact Nat.le_refl _
      · split <;> exact Nat.le_refl _

theorem commitCoefficient (wdata : Word) : BufferBlind (commitCoefficient wdata) where
  commutes s b := by
    unfold Machine.commitCoefficient
    simp only []
    rw [apply_ite (withBuffer b)]
    rfl
  fill_le s := by
    unfold Machine.commitCoefficient
    simp only []
    split <;> exact Nat.le_refl _

theorem latchReadback (wdata : Word) : BufferBlind (latchReadback wdata) where
  commutes s b := by
    unfold Machine.latchReadback
    simp only []
    rw [apply_ite (withBuffer b), apply_ite (withBuffer b)]
    rfl
  fill_le s := by
    rw [latchReadback_writes]

theorem endOfStream : BufferBlind endOfStream := ⟨fun _ _ => rfl, fun _ => Nat.zero_le _⟩

end BufferBlind

/-! ## The frame commit -/

/-- A reorder looks at the raw indices of one frame only. -/
theorem reorderFrame_congr {α : Type} [DecidableEq α] (d : α) (place : Nat → Nat) {raw raw' : Nat → α}
    (h : ∀ k, k < 6400 → raw k = raw' k) : reorderFrame d place raw = reorderFrame d place raw' :=
  List.foldl_ext _ _ _ fun c k hk => by rw [h k (mem_rawIndices.mp hk)]

theorem ingestSpatialFrame_withBuffer (b : CellList Byte) (s : State) :
    ingestSpatialFrame (withBuffer b s) = withBuffer b (ingestSpatialFrame s) := by
  have hr : scatterAdd (withBuffer b s).build.sumW (spatialUpdates (withBuffer b s)) ((withBuffer b s).sum, false) =
      scatterAdd s.build.sumW (spatialUpdates s) (s.sum, false) := rfl
  unfold ingestSpatialFrame
  rw [hr]
  generalize scatterAdd s.build.sumW (spatialUpdates s) (s.sum, false) = r
  rfl

theorem applyCalibrationFrame_withBuffer (b : CellList Byte) (s : State) :
    applyCalibrationFrame (withBuffer b s) = withBuffer b (applyCalibrationFrame s) := by
  unfold applyCalibrationFrame; rfl

theorem ingestCalHistogram_withBuffer (b : CellList Byte) (s : State) :
    ingestCalHistogram (withBuffer b s) = withBuffer b (ingestCalHistogram s) := by
  unfold ingestCalHistogram; rfl

theorem countFrame_withBuffer (b : CellList Byte) (s : State) :
    countFrame (withBuffer b s) = withBuffer b (countFrame s) := by
  unfold countFrame; rfl

section
variable {s : State} {b : CellList Byte} (hb : ∀ j, j < 12800 → Cells.find b j = Cells.find s.fbuf j)
include hb

/-- The samples of a record are made of the bytes below 12800 (20_memory.md R62). -/
theorem sample_withBuffer {k : Nat} (hk : k < 6400) : sample (withBuffer b s) k = sample s k := by
  have hbyte : ∀ j, j < 12800 → fbufAt (withBuffer b s) j = fbufAt s j := fun j hj => by
    simp only [fbufAt, Cells.get]
    exact congrArg (Option.getD · _) (hb j hj)
  simp only [sample, hbyte (2 * k) (by omega), hbyte (2 * k + 1) (by omega)]
  rfl

theorem reorderRecord_withBuffer : reorderRecord (withBuffer b s) = withBuffer b (reorderRecord s) := by
  have hr := reorderFrame_congr 0#16 (place s) fun k hk => sample_withBuffer hb hk
  unfold reorderRecord
  exact congrArg (fun c => withBuffer b { s with wires := { s.wires with spatial := c } }) hr

theorem ingestRawHistogram_withBuffer :
    ingestRawHistogram (withBuffer b s) = withBuffer b (ingestRawHistogram s) := by
  have hu : rawHistUpdates (withBuffer b s) = rawHistUpdates s := by
    unfold rawHistUpdates
    exact List.filterMap_congr fun k hk => by rw [sample_withBuffer hb (mem_rawIndices.mp hk)]
  unfold ingestRawHistogram
  rw [hu]
  rfl

/-- A commit reads the bytes below 12800 only (93_implementation_defined.md U3). -/
theorem commitFrame_withBuffer : commitFrame (withBuffer b s) = withBuffer b (commitFrame s) := by
  have hraw : ingestRawHistogram (withBuffer b (ingestSpatialFrame (reorderRecord s))) =
      withBuffer b (ingestRawHistogram (ingestSpatialFrame (reorderRecord s))) :=
    ingestRawHistogram_withBuffer (by simpa using hb)
  unfold commitFrame
  rw [reorderRecord_withBuffer hb, ingestSpatialFrame_withBuffer, hraw, applyCalibrationFrame_withBuffer,
    ingestCalHistogram_withBuffer, countFrame_withBuffer]

end

/-! ## Beats -/

/-- A byte that does not complete the record (43_driver.md R214). -/
theorem acceptByte_of_ne {s : State} (h : s.fill ≠ 12799) (data : Byte) :
    acceptByte data s = { withBuffer (Cells.insert s.fbuf s.fill data) s with fill := s.fill + 1 } := if_neg h

/-- The byte that completes the record (43_driver.md R214). -/
theorem acceptByte_of_eq {s : State} (h : s.fill = 12799) (data : Byte) :
    acceptByte data s = commitFrame (withBuffer (Cells.insert s.fbuf s.fill data) s) := if_pos h

namespace KeepsAgreement

theorem whenAccepted {f : State → State} (h : KeepsAgreement f) : KeepsAgreement fun s => whenAccepted s f := by
  rintro s _ ⟨b, rfl, hb⟩
  by_cases hd : s.driver = .running
  · simp only [whenAccepted_running hd, whenAccepted_running (s := withBuffer b s) hd]
    exact h s _ ⟨b, rfl, hb⟩
  · simp only [whenAccepted_held hd, whenAccepted_held (s := withBuffer b s) hd]
    exact ⟨b, rfl, hb⟩

/-- The byte goes to `fill` in both buffers; after the 12800th all that a commit reads agrees. -/
theorem acceptByte (data : Byte) : KeepsAgreement (acceptByte data) := by
  rintro s _ ⟨b, rfl, hb⟩
  have hstored : ∀ j, j < s.fill + 1 →
      Cells.find (Cells.insert b s.fill data) j = Cells.find (Cells.insert s.fbuf s.fill data) j := fun j hj => by
    rw [Cells.find_insert, Cells.find_insert]
    split
    · rfl
    · exact hb j (by omega)
  by_cases hf : s.fill = 12799
  · have hcommit := commitFrame_withBuffer (s := withBuffer (Cells.insert s.fbuf s.fill data) s) fun j hj =>
      hstored j (by omega)
    rw [acceptByte_of_eq hf, acceptByte_of_eq (s := withBuffer b s) hf]
    refine ⟨Cells.insert b s.fill data, hcommit, fun j hj => ?_⟩
    rw [commitFrame_fill] at hj
    exact absurd hj (Nat.not_lt_zero j)
  · rw [acceptByte_of_ne hf, acceptByte_of_ne (s := withBuffer b s) hf]
    exact ⟨Cells.insert b s.fill data, rfl, hstored⟩

theorem acceptLastByte (data : Byte) : KeepsAgreement (acceptLastByte data) := by
  intro s u h
  obtain ⟨b, hu, hb⟩ := acceptByte data s u h
  unfold Machine.acceptLastByte
  simp only [hu]
  by_cases hr : (Machine.acceptByte data s).driver = .running
  · rw [if_pos hr, if_pos (show (withBuffer b _).driver = _ from hr)]
    exact BufferBlind.endOfStream.keepsAgreement _ _ ⟨b, rfl, hb⟩
  · rw [if_neg hr, if_neg (show (withBuffer b _).driver ≠ _ from hr)]
    exact ⟨b, rfl, hb⟩

/-! ## Steps -/

theorem of_fetchedUpdate {f : State → State} (hf : FetchedUpdate f) : KeepsAgreement f := by
  cases hf with
  | nothing => exact fun _ _ h => h
  | cmdError => exact BufferBlind.raiseCmdError.keepsAgreement
  | read value hvalue =>
    refine BufferBlind.keepsAgreement (.of_fill_eq (fun s b => ?_) fun _ => rfl)
    exact congrArg (returnData (withBuffer b s)) (hvalue s b)
  | readFramesLo => exact BufferBlind.keepsAgreement (.of_fill_eq (fun _ _ => rfl) fun _ => rfl)
  | init => exact BufferBlind.commandInit.keepsAgreement
  | start => exact BufferBlind.commandStart.keepsAgreement
  | capEn | cap | selectGrid | coefLo =>
    refine BufferBlind.keepsAgreement (.inInit ?_)
    exact .of_fill_eq (fun _ _ => rfl) fun _ => rfl
  | coefHi wdata => exact (BufferBlind.commitCoefficient wdata).inInit.keepsAgreement
  | latch wdata => exact (BufferBlind.latchReadback wdata).keepsAgreement
  | byte data => exact (acceptByte data).whenAccepted
  | lastByte data => exact (acceptLastByte data).whenAccepted
  | eos => exact (BufferBlind.endOfStream.keepsAgreement).whenAccepted

end KeepsAgreement

/-- Both states step, and the states they step to agree below `fill`. -/
def StepsAgree (s u : State) : Prop := ∃ t v, step s = .next t ∧ step u = .next v ∧ AgreeBelowFill t v

theorem StepsAgree.of_quiet {s u t v : State} (hs : nextTurn s = .quiet t) (hu : nextTurn u = .quiet v)
    (h : AgreeBelowFill t v) : StepsAgree s u := ⟨t, v, step_of_quiet hs, step_of_quiet hu, h⟩

theorem StepsAgree.of_run {s u t v : State} {i : Instr} (hs : nextTurn s = .run i t) (hu : nextTurn u = .run i v)
    (hi : Updates i) (h : AgreeBelowFill t v) : StepsAgree s u := by
  obtain ⟨f, hf, he⟩ := hi
  exact ⟨f t, f v, (step_of_run hs).trans (he t), (step_of_run hu).trans (he v), KeepsAgreement.of_fetchedUpdate hf t v h⟩

/-- The turn and what is fetched do not depend on the frame buffer, and a reset drops it. -/
theorem stepsAgree_withBuffer {s : State} {b : CellList Byte}
    (hb : ∀ j, j < s.fill → Cells.find b j = Cells.find s.fbuf j) : StepsAgree s (withBuffer b s) := by
  rcases hs : s.sched with _ | ⟨_ | _ | _, rest⟩
  case nil => exact .of_quiet (nextTurn_nil hs) (nextTurn_nil (s := withBuffer b s) hs) ⟨b, rfl, hb⟩
  case cons.bus =>
    have h := nextTurn_bus hs
    have h' := nextTurn_bus (s := withBuffer b s) hs
    rcases hq : s.busQueue with _ | ⟨a, more⟩
    · exact .of_quiet (h.trans (busTurn_nil hq)) (h'.trans (busTurn_nil hq)) ⟨b, rfl, hb⟩
    · exact .of_run (h.trans (busTurn_cons hq)) (h'.trans (busTurn_cons hq)) (updates_decodeBus a) ⟨b, rfl, hb⟩
  case cons.stream =>
    have h := nextTurn_stream hs
    have h' := nextTurn_stream (s := withBuffer b s) hs
    rcases hq : s.beats with _ | ⟨a, more⟩
    · exact .of_quiet (h.trans (streamTurn_nil hq)) (h'.trans (streamTurn_nil hq)) ⟨b, rfl, hb⟩
    · exact .of_run (h.trans (streamTurn_cons hq)) (h'.trans (streamTurn_cons hq)) (updates_decodeBeat a) ⟨b, rfl, hb⟩
  case cons.reset =>
    exact .of_quiet (nextTurn_reset hs) (nextTurn_reset (s := withBuffer b s) hs) (AgreeBelowFill.refl _)

/-- Settles O59: the two steps make the same update, and every update keeps agreement below `fill`. -/
theorem frameBufferPastFillUnobservable : Obligations.FrameBufferPastFillUnobservable := by
  intro s f _ hf
  obtain ⟨t, _, ht, hu, b, rfl, hb⟩ := stepsAgree_withBuffer hf
  exact ⟨t, withBuffer b t, ht, hu, rfl, hb⟩

end Sys2Proof.Machine
end

section
/-! PROOF. The sticky flags (10_state.md R32, R53): what may set each flag and what may clear it, operation by operation. -/

namespace Sys2Proof.Machine

/-- A flag is set after an operation only if it was or `sets` holds, and stays set unless `clears` holds. -/
structure FlagRule (before after : Bool) (sets clears : Prop) : Prop where
  set : after = true → before = true ∨ sets
  kept : before = true → after = true ∨ clears

namespace FlagRule

variable {before after : Bool} {sets clears : Prop}

theorem same (h : after = before) : FlagRule before after sets clears :=
  ⟨fun ha => .inl (h ▸ ha), fun hb => .inl (h ▸ hb)⟩

theorem raised (hs : sets) (h : before = true → after = true) : FlagRule before after sets clears :=
  ⟨fun _ => .inr hs, fun hb => .inl (h hb)⟩

theorem cleared (hc : clears) (h : after = false) : FlagRule before after sets clears :=
  ⟨fun ha => absurd (h.symm.trans ha) Bool.false_ne_true, fun _ => .inr hc⟩

theorem changed (h : FlagRule before after sets clears) (hne : after ≠ before) : sets ∨ clears := by
  cases hb : before with
  | true => exact .inr ((h.kept hb).resolve_left fun ha => hne (ha.trans hb.symm))
  | false =>
    have ha : after = true := by simpa [hb] using hne
    exact .inl ((h.set ha).resolve_left (by simp [hb]))

theorem stays (h : FlagRule before after sets clears) (hc : ¬ clears) (hb : before = true) : after = true :=
  (h.kept hb).resolve_right hc

end FlagRule

/-- START, as a command or as the word written to CMD. -/
def isStart (i : Instr) : Prop := i = .cmdStart ∨ i = .wrCmd 2#32

/-- The operations that contain a frame commit. -/
def mayCommit (i : Instr) : Prop := i = .frameCommit ∨ ∃ d, i = .beatByte d ∨ i = .beatByteLast d

/-- The rule of each of the five flags (10_state.md R53). -/
structure FlagRules (i : Instr) (s t : State) : Prop where
  cfg : FlagRule s.cfgErr t.cfgErr (isStart i ∧ s.driver = .init ∧ coefReady s = false)
    (clearsFlags i s ∨ isStart i ∧ s.driver = .init ∧ coefReady s = true)
  cmd : FlagRule s.cmdErr t.cmdErr (cmdErrorCause i s) (clearsFlags i s)
  sum : FlagRule s.sumOvf t.sumOvf (i = .ingestSpatial ∨ mayCommit i) (clearsFlags i s)
  raw : FlagRule s.rhOvf t.rhOvf (i = .ingestRawHist ∨ mayCommit i) (clearsFlags i s)
  cal : FlagRule s.chOvf t.chOvf (i = .ingestCalHist ∨ mayCommit i) (clearsFlags i s)

namespace FlagRules

variable {i : Instr} {s t : State}

/-- An operation that leaves all but `cmd_err` alone, and that only where it is a cause. -/
theorem of_cmdErr (h₁ : t.cfgErr = s.cfgErr) (h₃ : t.sumOvf = s.sumOvf) (h₄ : t.rhOvf = s.rhOvf)
    (h₅ : t.chOvf = s.chOvf) (h₂ : t.cmdErr = s.cmdErr ∨ t.cmdErr = true ∧ cmdErrorCause i s) : FlagRules i s t where
  cfg := .same h₁
  cmd := by
    rcases h₂ with h | ⟨h, hc⟩
    · exact .same h
    · exact .raised hc fun _ => h
  sum := .same h₃
  raw := .same h₄
  cal := .same h₅

/-- An operation that changes no flag. -/
theorem of_same (h₁ : t.cfgErr = s.cfgErr) (h₂ : t.cmdErr = s.cmdErr) (h₃ : t.sumOvf = s.sumOvf)
    (h₄ : t.rhOvf = s.rhOvf) (h₅ : t.chOvf = s.chOvf) : FlagRules i s t := of_cmdErr h₁ h₃ h₄ h₅ (.inl h₂)

theorem raiseCmdError (hc : cmdErrorCause i s) : FlagRules i s (raiseCmdError s) :=
  of_cmdErr rfl rfl rfl rfl (.inr ⟨rfl, hc⟩)

theorem inInit {f : State → State} (hc : s.driver ≠ .init → cmdErrorCause i s) (hf : FlagRules i s (f s)) :
    FlagRules i s (inInit s f) := by
  by_cases hd : s.driver = .init
  · rw [inInit_of_init hd]; exact hf
  · rw [inInit_of_not_init hd]; exact raiseCmdError (hc hd)

theorem whenAccepted {f : State → State} (hf : FlagRules i s (f s)) : FlagRules i s (whenAccepted s f) := by
  by_cases hd : s.driver = .running
  · rw [whenAccepted_running hd]; exact hf
  · rw [whenAccepted_held hd]; exact of_same rfl rfl rfl rfl rfl

/-! ## Commands -/

theorem commandInit (hi : i = .cmdInit ∨ i = .wrCmd 1#32) (hc : s.driver = .running → cmdErrorCause i s) :
    FlagRules i s (commandInit s) := by
  unfold Machine.commandInit
  split
  · exact raiseCmdError (hc ‹_›)
  · have hclear : clearsFlags i s := ⟨hi, ‹_›⟩
    exact ⟨.cleared (.inl hclear) rfl, .cleared hclear rfl, .cleared hclear rfl, .cleared hclear rfl,
      .cleared hclear rfl⟩

/-- A START in INIT changes `cfg_err` alone. -/
theorem of_cfgErr (hcfg : FlagRule s.cfgErr t.cfgErr (isStart i ∧ s.driver = .init ∧ coefReady s = false)
    (clearsFlags i s ∨ isStart i ∧ s.driver = .init ∧ coefReady s = true)) (h₂ : t.cmdErr = s.cmdErr)
    (h₃ : t.sumOvf = s.sumOvf) (h₄ : t.rhOvf = s.rhOvf) (h₅ : t.chOvf = s.chOvf) : FlagRules i s t :=
  ⟨hcfg, .same h₂, .same h₃, .same h₄, .same h₅⟩

theorem commandStart (hi : isStart i) (hc : s.driver ≠ .init → cmdErrorCause i s) : FlagRules i s (commandStart s) := by
  unfold Machine.commandStart
  by_cases hd : s.driver = .init
  · rw [if_neg (not_not_intro hd)]
    cases hr : coefReady s with
    | false => exact of_cfgErr (.raised ⟨hi, hd, hr⟩ fun _ => rfl) rfl rfl rfl rfl
    | true =>
      rw [if_neg (by simp)]
      split <;> exact of_cfgErr (.cleared (.inr ⟨hi, hd, hr⟩) rfl) rfl rfl rfl rfl
  · rw [if_pos hd]
    exact raiseCmdError (hc hd)

theorem wrCmd (w : Word) : FlagRules (.wrCmd w) s (runCommand w s) := by
  rcases runCommand_cases w s with ⟨-, h⟩ | ⟨rfl, h⟩ | ⟨rfl, h⟩ | ⟨h0, h1, h2, h⟩ <;> rw [h]
  · exact of_same rfl rfl rfl rfl rfl
  · exact commandInit (.inr rfl) fun hd => .inr (.inl ⟨rfl, hd⟩)
  · exact commandStart (.inr rfl) fun hd => .inr (.inr ⟨rfl, hd⟩)
  · exact raiseCmdError (.inl ⟨h0, h1, h2⟩)

/-! ## Frames -/

/-- A frame commit sets overflow flags at most. -/
theorem of_overflows (hi : mayCommit i) (h₁ : t.cfgErr = s.cfgErr) (h₂ : t.cmdErr = s.cmdErr)
    (h : (s.sumOvf = true → t.sumOvf = true) ∧ (s.rhOvf = true → t.rhOvf = true) ∧
      (s.chOvf = true → t.chOvf = true)) : FlagRules i s t :=
  ⟨.same h₁, .same h₂, .raised (.inr hi) h.1, .raised (.inr hi) h.2.1, .raised (.inr hi) h.2.2⟩

theorem commitFrame (hi : mayCommit i) : FlagRules i s (commitFrame s) :=
  of_overflows hi (commitFrame_cfgErr s) (commitFrame_cmdErr s) (commitFrame_sticky s)

theorem acceptByte (data : Byte) (hi : mayCommit i) : FlagRules i s (acceptByte data s) := by
  rcases acceptByte_cases data s with ⟨-, h⟩ | ⟨-, h⟩ <;> rw [h]
  · exact of_same rfl rfl rfl rfl rfl
  · have hc := commitFrame (s := { s with fbuf := Cells.insert s.fbuf s.fill data }) hi
    exact ⟨hc.cfg, hc.cmd, hc.sum, hc.raw, hc.cal⟩

theorem acceptLastByte (data : Byte) (hi : mayCommit i) : FlagRules i s (acceptLastByte data s) := by
  have h := acceptByte (s := s) data hi
  unfold Machine.acceptLastByte
  simp only []
  split
  · exact ⟨h.cfg, h.cmd, h.sum, h.raw, h.cal⟩
  · exact h

end FlagRules

/-! ## The operands of COEF_SEL and RD_CTRL -/

/-- The only illegal grid is 3 (30_encoding.md R86). -/
theorem gridOperand_eq_none {w : Word} (h : gridOperand w = none) : w.toNat % 4 = 3 := by
  have hw : (w.extractLsb' 0 2).toNat = w.toNat % 4 := by simp
  unfold gridOperand at h
  split at h
  · cases h
  · cases h
  · cases h
  · rename_i h0 h1 h2
    rw [imp_false, hw] at h0 h1 h2
    omega

theorem selOperand_toNat (w : Word) : (selOperand w).toNat = w.toNat / 2 ^ 16 % 8 := by
  simp [selOperand, Nat.shiftRight_eq_div_pow]

theorem idxOperand_toNat (w : Word) : (idxOperand w).toNat = w.toNat % 2 ^ 14 := by
  simp [idxOperand]

/-- The lengths of 43_driver.md R198. -/
theorem readbackLength_eq (sel : BitVec 3) :
    readbackLength sel = [6400, 8192, 1000, 6400, 6400, 6400].getD sel.toNat 0 := by
  revert sel; decide

theorem latchReadback_cmdErr (w : Word) (s : State) :
    (latchReadback w s).cmdErr = s.cmdErr ∨ (latchReadback w s).cmdErr = true ∧ cmdErrorCause (.wrRdCtrl w) s := by
  unfold latchReadback
  simp only []
  split
  · rename_i h
    rw [readbackLength_eq, selOperand_toNat, idxOperand_toNat] at h
    exact .inr ⟨rfl, h⟩
  · split <;> exact .inl rfl

namespace FlagRules

variable {s : State}

theorem latchReadback (w : Word) : FlagRules (.wrRdCtrl w) s (latchReadback w s) :=
  of_cmdErr (by rw [latchReadback_writes]) (by rw [latchReadback_writes]) (by rw [latchReadback_writes])
    (by rw [latchReadback_writes]) (latchReadback_cmdErr w s)

theorem execWrCoefSel {w : Word} {t : State} (h : execWrCoefSel w s = .next t) : FlagRules (.wrCoefSel w) s t := by
  unfold Machine.execWrCoefSel at h
  split at h
  · obtain rfl := Host.Outcome.next.inj h
    exact inInit .inl (of_same rfl rfl rfl rfl rfl)
  · obtain rfl := Host.Outcome.next.inj h
    exact raiseCmdError (.inr (gridOperand_eq_none ‹_›))

theorem commitCoefficient (w : Word) {i : Instr} : FlagRules i s (commitCoefficient w s) := by
  unfold Machine.commitCoefficient
  simp only []
  split <;> exact of_same rfl rfl rfl rfl rfl

theorem execCalib {x : Sample} {p : BitVec 13} {t : State} (h : execCalib x p s = .next t) :
    FlagRules (.calib x p) s t := by
  unfold Machine.execCalib at h
  split at h
  · obtain rfl := Host.Outcome.next.inj h
    exact of_same rfl rfl rfl rfl rfl
  · cases h

theorem ingestSpatialFrame : FlagRules .ingestSpatial s (ingestSpatialFrame s) where
  cfg := .same (ingestSpatialFrame_cfgErr s)
  cmd := .same (ingestSpatialFrame_cmdErr s)
  sum := .raised (.inl rfl) fun h => by unfold Machine.ingestSpatialFrame; simp [h]
  raw := .same (ingestSpatialFrame_rhOvf s)
  cal := .same (ingestSpatialFrame_chOvf s)

theorem ingestRawHistogram : FlagRules .ingestRawHist s (ingestRawHistogram s) where
  cfg := .same (ingestRawHistogram_cfgErr s)
  cmd := .same (ingestRawHistogram_cmdErr s)
  sum := .same (ingestRawHistogram_sumOvf s)
  raw := .raised (.inl rfl) fun h => by unfold Machine.ingestRawHistogram; simp [h]
  cal := .same (ingestRawHistogram_chOvf s)

theorem ingestCalHistogram : FlagRules .ingestCalHist s (ingestCalHistogram s) where
  cfg := .same (ingestCalHistogram_cfgErr s)
  cmd := .same (ingestCalHistogram_cmdErr s)
  sum := .same (ingestCalHistogram_sumOvf s)
  raw := .same (ingestCalHistogram_rhOvf s)
  cal := .raised (.inl rfl) fun h => by unfold Machine.ingestCalHistogram; simp [h]

end FlagRules

/-- Every operation obeys the flags' rules: most change no flag, and the others are `cmd_err`'s causes, the two commands and
the frame operations. -/
theorem exec_flagRules {i : Instr} {s t : State} (h : exec i s = .next t) : FlagRules i s t := by
  cases i with
  | wrId | wrStatus | wrFramesLo | wrFramesHi | wrFill | wrCoefStat | wrRdLo | wrRdHi | cmdIllegal =>
    obtain rfl := Host.Outcome.next.inj h
    exact .raiseCmdError trivial
  | rdId | rdCmd | rdStatus | rdConfig | rdCapLo | rdCapHi | rdFramesLo | rdFramesHi | rdFill | rdCoefSel | rdCoefLo
  | rdCoefHi | rdCoefStat | rdRdCtrl | rdRdLo | rdRdHi | cmdNop =>
    obtain rfl := Host.Outcome.next.inj h
    exact .of_same rfl rfl rfl rfl rfl
  | wrConfig | wrCapLo | wrCapHi | wrCoefLo =>
    obtain rfl := Host.Outcome.next.inj h
    exact .inInit id (.of_same rfl rfl rfl rfl rfl)
  | wrCmd w => exact Host.Outcome.next.inj h ▸ .wrCmd w
  | wrCoefSel w => exact .execWrCoefSel h
  | wrCoefHi w => exact Host.Outcome.next.inj h ▸ .inInit id (.commitCoefficient w)
  | wrRdCtrl w => exact Host.Outcome.next.inj h ▸ .latchReadback w
  | cmdInit => exact Host.Outcome.next.inj h ▸ .commandInit (.inl rfl) id
  | cmdStart => exact Host.Outcome.next.inj h ▸ .commandStart (.inl rfl) id
  | beatNull | beatEos =>
    obtain rfl := Host.Outcome.next.inj h
    exact .whenAccepted (.of_same rfl rfl rfl rfl rfl)
  | beatByte d => exact Host.Outcome.next.inj h ▸ .whenAccepted (.acceptByte d (.inr ⟨d, .inl rfl⟩))
  | beatByteLast d => exact Host.Outcome.next.inj h ▸ .whenAccepted (.acceptLastByte d (.inr ⟨d, .inr rfl⟩))
  | reorder => exact Host.Outcome.next.inj h ▸ .of_same (by simp) (by simp) (by simp) (by simp) (by simp)
  | calib x p => exact .execCalib h
  | ingestSpatial => exact Host.Outcome.next.inj h ▸ .ingestSpatialFrame
  | ingestRawHist => exact Host.Outcome.next.inj h ▸ .ingestRawHistogram
  | applyCalibration => exact Host.Outcome.next.inj h ▸ .of_same (by simp) (by simp) (by simp) (by simp) (by simp)
  | ingestCalHist => exact Host.Outcome.next.inj h ▸ .ingestCalHistogram
  | frameCommit => exact Host.Outcome.next.inj h ▸ .commitFrame (.inl rfl)

/-- Settles O54: a flag that changes was set or cleared as its rule says, and one that is not cleared stays set. -/
theorem flagsChangedOnlyByTheirRules : Obligations.FlagsChangedOnlyByTheirRules := by
  intro i s t h
  obtain ⟨cfg, cmd, sum, raw, cal⟩ := exec_flagRules h
  refine ⟨cfg.set, cfg.kept, cmd.set, fun hne => ?_, fun hne => ?_, fun hne => ?_, fun hc =>
    ⟨cmd.stays hc, sum.stays hc, raw.stays hc, cal.stays hc⟩⟩
  · simpa only [mayCommit, or_assoc] using sum.changed hne
  · simpa only [mayCommit, or_assoc] using raw.changed hne
  · simpa only [mayCommit, or_assoc] using cal.changed hne

end Sys2Proof.Machine
end

section
/-! PROOF. Bus accesses and the memory they see (20_memory.md): how an access selects its register, what a read returns, how
two bytes of the record make a sample, and what no operation changes outside INIT. -/

namespace Sys2Proof.Machine

/-! ## Selection by `addr[5:2]` (20_memory.md R64) -/

/-- `addr[1:0]` takes no part in selecting the register. -/
theorem selectRegister_congr {x y : BitVec 6} (h : x.toNat / 4 = y.toNat / 4) : selectRegister x = selectRegister y := by
  have hbits : x.extractLsb' 2 4 = y.extractLsb' 2 4 :=
    BitVec.eq_of_toNat_eq (by simp [Nat.shiftRight_eq_div_pow, h])
  exact getElem_congr_idx (congrArg BitVec.toNat hbits)

/-- Settles O2: the register is a function of `addr[5:2]`, and `dir` chooses its write or its read. -/
theorem busDecodeIgnoresLowAddressBits : Obligations.BusDecodeIgnoresLowAddressBits := by
  intro a b hdir hdata haddr
  simp only [decodeBus, hdir, hdata, selectRegister_congr haddr]

/-! ## Reads (20_memory.md R66) -/

/-- The word a read of `r` returns. -/
def readValue : Reg → State → Word
  | .id, _ => 0x48585401#32
  | .cmd, _ => 0x00000000#32
  | .status, s => statusWord s
  | .config, s => flagWord s.capEn
  | .capLo, s => lowWord s.cap
  | .capHi, s => highWord s.cap
  | .framesLo, s => lowWord s.frames
  | .framesHi, s => s.framesLatchHi
  | .fill, s => fillWord s
  | .coefSel, s => coefSelWord s
  | .coefLo, _ => 0x00000000#32
  | .coefHi, _ => 0x00000000#32
  | .coefStat, s => coefStatWord s
  | .rdCtrl, s => rdCtrlWord s
  | .rdLo, s => lowWord s.rdBuf
  | .rdHi, s => highWord s.rdBuf

/-- A read returns its register's word and, but for RD FRAMES_LO, does nothing else. -/
theorem exec_readInstr {r : Reg} (hr : r ≠ .framesLo) (s : State) :
    exec (readInstr r) s = .next (returnData s (readValue r s)) := by
  cases r with
  | framesLo => exact absurd rfl hr
  | _ => rfl

/-- No register shows what the last read returned. -/
@[simp] theorem readValue_returnData (r : Reg) (s : State) (v : Word) :
    readValue r (returnData s v) = readValue r s := by
  cases r <;> rfl

/-- Settles O31: the second read returns the same word, so it leaves the state the first one left. -/
theorem readsAreIdempotent : Obligations.ReadsAreIdempotent := by
  intro s r hr
  refine ⟨returnData s (readValue r s), exec_readInstr hr s, rfl, ?_⟩
  rw [exec_readInstr hr, readValue_returnData]
  rfl

/-! ## Samples (20_memory.md R62) -/

/-- Of two bytes side by side the upper one counts 256 times. -/
theorem toNat_append_bytes (hi lo : Byte) : (hi ++ lo).toNat = 256 * hi.toNat + lo.toNat := by
  rw [BitVec.toNat_append, ← Nat.shiftLeft_add_eq_or_of_lt lo.isLt, Nat.shiftLeft_eq, Nat.mul_comm]

theorem assembleSample_le_toNat (b0 b1 : Byte) : (assembleSample .le b0 b1).toNat = b0.toNat + 256 * b1.toNat :=
  (toNat_append_bytes b1 b0).trans (Nat.add_comm _ _)

theorem assembleSample_be_toNat (b0 b1 : Byte) : (assembleSample .be b0 b1).toNat = 256 * b0.toNat + b1.toNat :=
  toNat_append_bytes b0 b1

/-- Settles O38: the build's byte order says which of the two bytes is the upper one. -/
theorem sampleByteOrder : Obligations.SampleByteOrder := by
  intro s k
  refine ⟨fun h => ?_, fun h => ?_⟩ <;> rw [sample, h]
  · exact assembleSample_le_toNat _ _
  · exact assembleSample_be_toNat _ _

/-! ## What stands still outside INIT (20_memory.md R74, 41_calibration.md R137) -/

/-- The calibration table with the bookkeeping of its load, `cap_en` and `cap`: what only INIT's writes change. -/
def tableAndCap (s : State) :
    PerGrid (CellList DWord) × PerGrid Nat × PerGrid Bool × Grid × Word × Bool × DWord :=
  (s.coef, s.cnt, s.ovf, s.coefSel, s.coefLoHold, s.capEn, s.cap)

/-- A write that takes effect in INIT only raises an error elsewhere. -/
theorem tableAndCap_inInit {s : State} (hd : s.driver ≠ .init) (f : State → State) :
    tableAndCap (inInit s f) = tableAndCap s := by
  rw [inInit_of_not_init hd]; rfl

section

variable (s : State)

theorem tableAndCap_latchReadback (wdata : Word) : tableAndCap (latchReadback wdata s) = tableAndCap s := by
  rw [latchReadback_writes]; rfl

theorem tableAndCap_commandInit : tableAndCap (commandInit s) = tableAndCap s := by
  unfold commandInit; split <;> rfl

theorem tableAndCap_commandStart : tableAndCap (commandStart s) = tableAndCap s := by
  unfold commandStart; split <;> [rfl; split <;> [rfl; split <;> rfl]]

theorem tableAndCap_runCommand (wdata : Word) : tableAndCap (runCommand wdata s) = tableAndCap s := by
  rcases runCommand_cases wdata s with ⟨-, h⟩ | ⟨-, h⟩ | ⟨-, h⟩ | ⟨-, -, -, h⟩ <;> rw [h]
  · exact tableAndCap_commandInit s
  · exact tableAndCap_commandStart s
  · rfl

theorem tableAndCap_commitFrame : tableAndCap (commitFrame s) = tableAndCap s := by
  simp [tableAndCap]

theorem tableAndCap_acceptByte (data : Byte) : tableAndCap (acceptByte data s) = tableAndCap s := by
  rcases acceptByte_cases data s with ⟨-, h⟩ | ⟨-, h⟩ <;> rw [h]
  · rfl
  · exact tableAndCap_commitFrame _

theorem tableAndCap_acceptLastByte (data : Byte) : tableAndCap (acceptLastByte data s) = tableAndCap s := by
  have hbyte := tableAndCap_acceptByte s data
  unfold acceptLastByte
  simp only []
  split <;> exact hbyte

theorem tableAndCap_whenAccepted {f : State → State} (hf : tableAndCap (f s) = tableAndCap s) :
    tableAndCap (whenAccepted s f) = tableAndCap s := by
  unfold whenAccepted
  split
  · exact hf
  · rfl

end

/-- Outside INIT every operation keeps the table and the cap: the writes to them are refused, and no command, beat or frame
operation touches them. -/
theorem exec_keeps_tableAndCap {i : Instr} {s t : State} (hd : s.driver ≠ .init) (h : exec i s = .next t) :
    tableAndCap t = tableAndCap s := by
  cases i with
  | wrConfig | wrCapLo | wrCapHi | wrCoefLo | wrCoefHi => exact Host.Outcome.next.inj h ▸ tableAndCap_inInit hd _
  | wrCoefSel w =>
    simp only [exec, execWrCoefSel] at h
    split at h <;> obtain rfl := Host.Outcome.next.inj h
    · exact tableAndCap_inInit hd _
    · rfl
  | wrId | wrStatus | wrFramesLo | wrFramesHi | wrFill | wrCoefStat | wrRdLo | wrRdHi | cmdIllegal | cmdNop
  | rdId | rdCmd | rdStatus | rdConfig | rdCapLo | rdCapHi | rdFramesLo | rdFramesHi | rdFill | rdCoefSel | rdCoefLo
  | rdCoefHi | rdCoefStat | rdRdCtrl | rdRdLo | rdRdHi =>
    obtain rfl := Host.Outcome.next.inj h
    rfl
  | wrRdCtrl w => exact Host.Outcome.next.inj h ▸ tableAndCap_latchReadback s w
  | wrCmd w => exact Host.Outcome.next.inj h ▸ tableAndCap_runCommand s w
  | cmdInit => exact Host.Outcome.next.inj h ▸ tableAndCap_commandInit s
  | cmdStart => exact Host.Outcome.next.inj h ▸ tableAndCap_commandStart s
  | beatNull | beatEos => exact Host.Outcome.next.inj h ▸ tableAndCap_whenAccepted s rfl
  | beatByte d => exact Host.Outcome.next.inj h ▸ tableAndCap_whenAccepted s (tableAndCap_acceptByte s d)
  | beatByteLast d => exact Host.Outcome.next.inj h ▸ tableAndCap_whenAccepted s (tableAndCap_acceptLastByte s d)
  | calib x p =>
    simp only [exec, execCalib] at h
    split at h
    · obtain rfl := Host.Outcome.next.inj h
      rfl
    · cases h
  | reorder | ingestSpatial | ingestRawHist | applyCalibration | ingestCalHist =>
    obtain rfl := Host.Outcome.next.inj h
    simp [tableAndCap]
  | frameCommit => exact Host.Outcome.next.inj h ▸ tableAndCap_commitFrame s

/-- Settles O52: the seven elements are the parts of `tableAndCap`. -/
theorem tableAndCapFixedOutsideInit : Obligations.TableAndCapFixedOutsideInit := by
  intro i s t hd h
  simpa only [tableAndCap, Prod.mk.injEq] using exec_keeps_tableAndCap hd h

end Sys2Proof.Machine
end

section
/-! PROOF. The packed notation (30_encoding.md R81 to R83): the decoder and the encoder undo each other format by format, up
to the bits the rules say are ignored, and the byte layout of log 12 loses nothing. -/

namespace Sys2Proof

open Machine

/-- One bit as a bit vector of width 1. -/
theorem ofBool_getLsbD {n : Nat} (x : BitVec n) (i : Nat) : BitVec.ofBool (x.getLsbD i) = x.extractLsb' i 1 := by
  ext j hj
  obtain rfl : j = 0 := by omega
  simp

/-! ## Format BUS (30_encoding.md R81) -/

/-- The packed key `dir<<6 | addr`. -/
def busKey (dir : Bool) (addr : BitVec 6) : BitVec 7 :=
  BitVec.ofBool dir ++ addr

/-- The address of a register in the map, its two ignored bits 0. -/
def regAddr (r : Reg) : BitVec 6 :=
  BitVec.ofNat 4 (registerMap.idxOf r) ++ 0#2

/-- The address of the selected register is the address that was decoded, but for `addr[1:0]` (20_memory.md R64). -/
theorem regAddr_selectRegister (addr : BitVec 6) : regAddr (selectRegister addr) = addr &&& 0x3C#6 := by
  revert addr; decide

theorem busKey_accessOfKey (key : BitVec 7) (wdata : Word) :
    busKey (accessOfKey key wdata).dir (accessOfKey key wdata).addr = key := by
  simp only [busKey, accessOfKey, ofBool_getLsbD]
  exact BitVec.extractLsb'_append_extractLsb'

/-- The mask of a bus row keeps `dir` and `addr[5:2]`. -/
theorem busKey_and_rowMask (dir : Bool) (addr : BitVec 6) :
    busKey dir addr &&& 0x7C#7 = busKey dir (addr &&& 0x3C#6) := by
  have hmask : 0x7C#7 = BitVec.allOnes 1 ++ 0x3C#6 := rfl
  rw [busKey, hmask, BitVec.and_append, BitVec.and_allOnes, busKey]

/-- Bit 6 of a key makes it a write. -/
theorem decode_busWrite {key : BitVec 7} (hdir : key.getLsbD 6 = true) (wdata : Word) :
    decode (.bus key wdata) = writeInstr (selectRegister (key.extractLsb' 0 6)) wdata :=
  if_pos hdir

theorem encode_writeInstr (r : Reg) (wdata : Word) :
    encode (writeInstr r wdata) = some (.bus (busKey true (regAddr r)) wdata) := by
  cases r <;> rfl

theorem encode_readInstr (r : Reg) : encode (readInstr r) = some (.bus (busKey false (regAddr r)) 0#32) := by
  cases r <;> rfl

/-- An access encodes back with its `wdata` if it is a write, and without what its address ignores. -/
theorem encode_decodeBus (a : BusAccess) :
    encode (decodeBus a) = some (.bus (busKey a.dir a.addr &&& 0x7C#7) (if a.dir then a.wdata else 0#32)) := by
  obtain ⟨dir, addr, wdata⟩ := a
  rw [busKey_and_rowMask, ← regAddr_selectRegister]
  cases dir with
  | true => exact encode_writeInstr _ wdata
  | false => exact encode_readInstr _

theorem decodeBus_wellFormed (a : BusAccess) : (decodeBus a).wellFormed = true := by
  rcases decodeBus_cases a with h | h <;> rw [h] <;> cases selectRegister a.addr <;> rfl

/-! ## Format CMD (30_encoding.md R82) -/

/-- A word with RSVD = 0 is its OP field. -/
theorem eq_of_rsvd_op {w : Word} {op : BitVec 4} (hrsvd : w.extractLsb' 4 28 = 0#28) (hop : w.extractLsb' 0 4 = op) :
    w = 0#28 ++ op := by
  rw [← hrsvd, ← hop]
  exact (BitVec.extractLsb'_append_extractLsb' (w := 28) (len := 4)).symm

/-- A command word by its value: the three legal words, and the illegal ones. -/
theorem decodeCmd_cases (w : Word) :
    (w = 0#32 ∧ decodeCmd w = .cmdNop) ∨ (w = 1#32 ∧ decodeCmd w = .cmdInit) ∨
      (w = 2#32 ∧ decodeCmd w = .cmdStart) ∨ (legalCommand w = false ∧ decodeCmd w = .cmdIllegal w) := by
  by_cases h0 : w = 0#32
  · subst h0; exact .inl ⟨rfl, rfl⟩
  by_cases h1 : w = 1#32
  · subst h1; exact .inr (.inl ⟨rfl, rfl⟩)
  by_cases h2 : w = 2#32
  · subst h2; exact .inr (.inr (.inl ⟨rfl, rfl⟩))
  refine .inr (.inr (.inr ⟨by simp [legalCommand, h0, h1, h2], ?_⟩))
  simp only [decodeCmd]
  split_ifs with hr o0 o1 o2
  · rfl
  · exact absurd (eq_of_rsvd_op (not_not.mp hr) o0) h0
  · exact absurd (eq_of_rsvd_op (not_not.mp hr) o1) h1
  · exact absurd (eq_of_rsvd_op (not_not.mp hr) o2) h2
  · rfl

theorem decodeCmd_of_illegal {w : Word} (h : legalCommand w = false) : decodeCmd w = .cmdIllegal w := by
  rcases decodeCmd_cases w with ⟨rfl, -⟩ | ⟨rfl, -⟩ | ⟨rfl, -⟩ | ⟨-, hw⟩
  · cases h
  · cases h
  · cases h
  · exact hw

theorem encode_decodeCmd (w : Word) : encode (decodeCmd w) = some (.cmd w) := by
  rcases decodeCmd_cases w with ⟨rfl, h⟩ | ⟨rfl, h⟩ | ⟨rfl, h⟩ | ⟨-, h⟩ <;> rw [h] <;> rfl

theorem decodeCmd_wellFormed (w : Word) : (decodeCmd w).wellFormed = true := by
  rcases decodeCmd_cases w with ⟨-, h⟩ | ⟨-, h⟩ | ⟨-, h⟩ | ⟨hw, h⟩ <;> rw [h]
  · rfl
  · rfl
  · rfl
  · simp [Instr.wellFormed, hw]

/-! ## Format BEAT (30_encoding.md R83) -/

theorem beatOfWord_beatWord (keep last : Bool) (data : Byte) :
    beatOfWord (beatWord keep last data) = { keep := keep, last := last, data := data } := by
  have hkeep : (beatWord keep last data).getLsbD 9 = keep := by
    simp only [beatWord, BitVec.getLsbD_append]
    cases keep <;> rfl
  have hlast : (beatWord keep last data).getLsbD 8 = last := by
    simp only [beatWord, BitVec.getLsbD_append]
    cases last <;> rfl
  have hdata : (beatWord keep last data).extractLsb' 0 8 = data := BitVec.extractLsb'_append_eq_right
  rw [beatOfWord, hkeep, hlast, hdata]

theorem beatWord_beatOfWord (w : BitVec 10) :
    beatWord (beatOfWord w).keep (beatOfWord w).last (beatOfWord w).data = w := by
  have hkl : w.extractLsb' 9 1 ++ w.extractLsb' 8 1 = w.extractLsb' 8 2 :=
    BitVec.extractLsb'_append_extractLsb'_eq_extractLsb' rfl
  simp only [beatWord, beatOfWord, ofBool_getLsbD, hkl]
  exact BitVec.extractLsb'_append_extractLsb'

/-- The mask of a beat row keeps `keep` and `last`. -/
theorem beatWord_and_rowMask (keep last : Bool) (data : Byte) :
    beatWord keep last data &&& 0x300#10 = beatWord keep last 0#8 := by
  have hmask : 0x300#10 = BitVec.allOnes 2 ++ 0#8 := rfl
  rw [beatWord, hmask, BitVec.and_append, BitVec.and_allOnes, BitVec.and_zero, beatWord]

/-- A beat encodes back whole if it keeps its byte, and without the byte if not. -/
theorem encode_decodeBeat (b : Beat) :
    encode (decodeBeat b) = some (.beat (if b.keep then beatWord b.keep b.last b.data
      else beatWord b.keep b.last b.data &&& 0x300#10)) := by
  obtain ⟨keep, last, data⟩ := b
  cases keep with
  | true => cases last <;> rfl
  | false =>
    simp only [Bool.false_eq_true, if_false, beatWord_and_rowMask]
    cases last <;> rfl

theorem decodeBeat_wellFormed (b : Beat) : (decodeBeat b).wellFormed = true := by
  rcases decodeBeat_cases b with h | h | h | h <;> rw [h] <;> rfl

/-! ## The whole notation -/

/-- Settles O3: a row with fixed bits decodes by computation, an illegal command word because no legal word equals it, and a
byte because the fields of a beat word are the parts it was made of. -/
theorem decodeEncode : Obligations.DecodeEncode := by
  intro i e hwf he
  cases i with
  | wrId w | wrCmd w | wrStatus w | wrConfig w | wrCapLo w | wrCapHi w | wrFramesLo w | wrFramesHi w | wrFill w
  | wrCoefSel w | wrCoefLo w | wrCoefHi w | wrCoefStat w | wrRdCtrl w | wrRdLo w | wrRdHi w =>
    obtain rfl := Option.some.inj he
    exact decode_busWrite rfl w
  | rdId | rdCmd | rdStatus | rdConfig | rdCapLo | rdCapHi | rdFramesLo | rdFramesHi | rdFill | rdCoefSel | rdCoefLo
  | rdCoefHi | rdCoefStat | rdRdCtrl | rdRdLo | rdRdHi
  | cmdNop | cmdInit | cmdStart | beatNull | beatEos =>
    obtain rfl := Option.some.inj he
    rfl
  | cmdIllegal w =>
    obtain rfl := Option.some.inj he
    exact decodeCmd_of_illegal (by simpa [Instr.wellFormed] using hwf)
  | beatByte d =>
    obtain rfl := Option.some.inj he
    exact congrArg decodeBeat (beatOfWord_beatWord true false d)
  | beatByteLast d =>
    obtain rfl := Option.some.inj he
    exact congrArg decodeBeat (beatOfWord_beatWord true true d)
  | reorder | calib | ingestSpatial | ingestRawHist | applyCalibration | ingestCalHist | frameCommit => cases he

/-- Settles O4, format by format. -/
theorem encodeDecodeUpToIgnoredBits : Obligations.EncodeDecodeUpToIgnoredBits := by
  intro e
  cases e with
  | bus key wdata =>
    refine ⟨decodeBus_wellFormed _, (encode_decodeBus _).trans ?_⟩
    rw [busKey_accessOfKey]
    rfl
  | cmd word => exact ⟨decodeCmd_wellFormed word, encode_decodeCmd word⟩
  | beat word =>
    refine ⟨decodeBeat_wellFormed _, (encode_decodeBeat _).trans ?_⟩
    rw [beatWord_beatOfWord]
    rfl

/-! ## The byte layout (log 12) -/

theorem wordOfBytes_extract (w : Word) :
    wordOfBytes (w.extractLsb' 0 8) (w.extractLsb' 8 8) (w.extractLsb' 16 8) (w.extractLsb' 24 8) = w := by
  have h1 : w.extractLsb' 24 8 ++ w.extractLsb' 16 8 = w.extractLsb' 16 16 :=
    BitVec.extractLsb'_append_extractLsb'_eq_extractLsb' rfl
  have h2 : w.extractLsb' 16 16 ++ w.extractLsb' 8 8 = w.extractLsb' 8 24 :=
    BitVec.extractLsb'_append_extractLsb'_eq_extractLsb' rfl
  rw [wordOfBytes, h1, h2]
  exact BitVec.extractLsb'_append_extractLsb'

/-- A command word laid out as bytes is read back from the front of any list. -/
theorem unpackBytes_cmd (w : Word) (rest : List Byte) :
    unpackBytes .cmd (bytesOfWord w ++ rest) = .ok (.cmd w, rest) := by
  simp only [bytesOfWord, List.cons_append, List.nil_append, unpackBytes, wordOfBytes_extract]

/-- Settles O5: the bytes of each format hold its fields side by side, and a read, which has no `wdata` byte, had none. -/
theorem bytesRoundTrip : Obligations.BytesRoundTrip := by
  intro e rest hread
  cases e with
  | bus key wdata =>
    have h7 : (0#1 ++ key).getLsbD 7 = false := by rw [BitVec.getLsbD_append]; rfl
    have h6 : (0#1 ++ key).getLsbD 6 = key.getLsbD 6 := by rw [BitVec.getLsbD_append]; rfl
    have hkey : (0#1 ++ key).extractLsb' 0 7 = key := BitVec.extractLsb'_append_eq_right
    cases hdir : key.getLsbD 6 with
    | true =>
      simp only [Encoded.format, packBytes, bytesOfWord, List.cons_append, List.nil_append, unpackBytes, h7, h6, hkey,
        hdir, if_true, wordOfBytes_extract, Bool.false_eq_true, if_false]
    | false =>
      obtain rfl := hread key wdata rfl hdir
      simp only [Encoded.format, packBytes, List.cons_append, List.nil_append, unpackBytes, h7, h6, hkey, hdir,
        Bool.false_eq_true, if_false]
  | cmd word => exact unpackBytes_cmd word rest
  | beat word =>
    have hhigh : (0#6 ++ word.extractLsb' 8 2).extractLsb' 2 6 = 0#6 := BitVec.extractLsb'_append_eq_left
    have hlow : (0#6 ++ word.extractLsb' 8 2).extractLsb' 0 2 = word.extractLsb' 8 2 :=
      BitVec.extractLsb'_append_eq_right
    have hword : word.extractLsb' 8 2 ++ word.extractLsb' 0 8 = word := BitVec.extractLsb'_append_extractLsb'
    simp only [Encoded.format, packBytes, List.cons_append, List.nil_append, unpackBytes, hhigh, hlow, hword, if_true]

/-- Settles O1: each word is decoded by computation. -/
theorem decodesTableWords : Obligations.DecodesTableWords := by
  unfold Obligations.DecodesTableWords
  decide

end Sys2Proof
end

section
/-! PROOF. The reorderer: the index permutation and its inverse, the address generator, and the operation REORDER (40_reorderer.md
R110 to R115). -/

namespace Sys2Proof.Machine

/-! ## The coordinates of an index

A raw index and a spatial index have the same row. Within the row, column `4 * group + channel` of the raw order is column
`20 * channel + group` of the spatial order. -/

theorem rawChannel_lt (k : Nat) : rawChannel k < 4 := Nat.mod_lt k (by decide)

theorem rawGroup_lt (k : Nat) : rawGroup k < 20 := by
  have hcolumn : k % 80 < 80 := Nat.mod_lt k (by decide)
  simp only [rawGroup]
  omega

/-- A raw index is put together from its row, group and channel (40_reorderer.md R110). -/
theorem rawIndex_split (k : Nat) : rawRow k * 80 + rawGroup k * 4 + rawChannel k = k := by
  simp only [rawRow, rawGroup, rawChannel]
  omega

/-- The column of a raw index within its row. -/
theorem rawColumn_eq (k : Nat) : k % 80 = rawGroup k * 4 + rawChannel k := by
  simp only [rawGroup, rawChannel]
  omega

/-- `P` puts row, group and channel together in spatial order. -/
theorem P_of_coordinates {row group channel : Nat} (hg : group < 20) (hc : channel < 4) :
    P (row * 80 + group * 4 + channel) = row * 80 + (group + channel * 20) := by
  have hrow : (row * 80 + group * 4 + channel) / 80 = row := by omega
  have hgroup : (row * 80 + group * 4 + channel) % 80 / 4 = group := by omega
  have hchannel : (row * 80 + group * 4 + channel) % 4 = channel := by omega
  rw [P, rawRow, rawGroup, rawChannel, hrow, hgroup, hchannel]

/-- `Q` takes row, group and channel out of a spatial index. -/
theorem Q_of_coordinates {row group channel : Nat} (hg : group < 20) (hc : channel < 4) :
    Q (row * 80 + (group + channel * 20)) = row * 80 + group * 4 + channel := by
  have hrow : (row * 80 + (group + channel * 20)) / 80 = row := by omega
  have hcolumn : (row * 80 + (group + channel * 20)) % 80 = group + channel * 20 := by omega
  have hgroup : (group + channel * 20) % 20 = group := by omega
  have hchannel : (group + channel * 20) / 20 = channel := by omega
  rw [Q, hrow, hcolumn, hgroup, hchannel]

/-! ## P and Q (40_reorderer.md R113) -/

theorem Q_P (k : Nat) : Q (P k) = k := by
  rw [P, Q_of_coordinates (rawGroup_lt k) (rawChannel_lt k), rawIndex_split]

/-- `P` keeps the row. -/
theorem P_div_80 (k : Nat) : P k / 80 = k / 80 := by
  have hg := rawGroup_lt k
  have hc := rawChannel_lt k
  simp only [P, rawRow]
  omega

theorem P_Q (p : Nat) : P (Q p) = p := by
  have hg : p % 80 % 20 < 20 := Nat.mod_lt _ (by decide)
  have hc : p % 80 / 20 < 4 := by omega
  rw [Q, P_of_coordinates hg hc]
  omega

theorem Q_lt {p : Nat} (hp : p < 6400) : Q p < 6400 := by
  simp only [Q]
  omega

/-- `P` fixes `k` exactly if `19 * channel = 3 * group`, which leaves the first column of a row and the last. -/
theorem P_eq_self_iff (k : Nat) : P k = k ↔ k % 80 = 0 ∨ k % 80 = 79 := by
  have hg := rawGroup_lt k
  have hc := rawChannel_lt k
  have hsplit := rawIndex_split k
  have hfixed : P k = k ↔ 19 * rawChannel k = 3 * rawGroup k := by
    rw [P]
    omega
  rw [hfixed, rawColumn_eq]
  omega

/-- Settles O36: `P` puts the coordinates of a raw index together in spatial order, and `Q` puts them back in raw order. -/
theorem permutationBijective : Obligations.PermutationBijective :=
  ⟨fun k hk => ⟨P_lt hk, Q_P k, P_div_80 k⟩, fun p hp => ⟨Q_lt hp, P_Q p⟩, fun k _ => P_eq_self_iff k⟩

/-! ## The address generator (40_reorderer.md R115) -/

/-- The three counters after any number of samples: the coordinates of the raw index within its frame. -/
theorem countersAt_eq (k : Nat) :
    countersAt k = { channel := rawChannel k, group := rawGroup k, row := rawRow (k % 6400) } := by
  induction k with
  | zero => rfl
  | succ k ih =>
    simp only [countersAt, ih, advanceCounters, rawChannel, rawGroup, rawRow]
    split
    case isTrue hchannel =>
      rw [Counters.mk.injEq]
      omega
    case isFalse hchannel =>
      split
      case isTrue hgroup =>
        rw [Counters.mk.injEq]
        omega
      case isFalse hgroup => split <;> (rw [Counters.mk.injEq]; omega)

theorem counterAddress_countersAt {k : Nat} (hk : k < 6400) : counterAddress (countersAt k) = P k := by
  rw [countersAt_eq, Nat.mod_eq_of_lt hk, counterAddress, P, Nat.add_assoc, Nat.add_comm (rawGroup k)]

/-- Settles O37: the ROM holds `P`, and the counters hold the coordinates of the raw index that `P` is made of. -/
theorem addressGeneratorRealizations : Obligations.AddressGeneratorRealizations := by
  refine ⟨fun impl k hk => spatialIndex_eq impl hk, fun k hk => counterAddress_countersAt hk, ?_⟩
  rw [countersAt_eq 6400, countersAt_eq 0]
  rfl

/-! ## REORDER (40_reorderer.md R114) -/

theorem exec_reorder (s : State) : exec .reorder s = .next (reorderRecord s) := rfl

/-- Settles O39: the record is written to the wires alone, and `P` sends no two samples to one pixel. -/
theorem reorderPlacesSamples : Obligations.ReorderPlacesSamples := fun s =>
  ⟨reorderRecord s, exec_reorder s, reorderRecord_writes s, fun _ hk => spatialAt_reorderRecord s hk⟩

end Sys2Proof.Machine
end

section
/-! PROOF. The coefficient load (41_calibration.md R133 to R136): a grid selected and its load restarted, the low word held, a
coefficient stored at its spatial place, and what a complete table is. -/

namespace Sys2Proof.Machine

/-! ## COEF_SEL (41_calibration.md R133) -/

theorem gridCode_lt (g : Grid) : gridCode g < 3 := by cases g <;> decide

/-- The legal GRID operands are the codes of the three grids (30_encoding.md R86). -/
theorem gridOperand_eq_some_iff (w : Word) (g : Grid) : gridOperand w = some g ↔ w.toNat % 4 = gridCode g := by
  have hw : (w.extractLsb' 0 2).toNat = w.toNat % 4 := by simp
  have hlt : w.toNat % 4 < 4 := Nat.mod_lt _ (by decide)
  rw [gridOperand, hw]
  generalize w.toNat % 4 = code at hlt
  interval_cases code <;> cases g <;> decide

theorem gridOperand_of_three {w : Word} (h : w.toNat % 4 = 3) : gridOperand w = none := by
  cases hg : gridOperand w with
  | none => rfl
  | some g =>
    have hcode := (gridOperand_eq_some_iff w g).mp hg
    have hlt := gridCode_lt g
    omega

theorem exec_wrCoefSel_some {w : Word} {g : Grid} (h : gridOperand w = some g) (s : State) :
    exec (.wrCoefSel w) s = .next (inInit s (selectGrid g)) := by
  simp only [exec, execWrCoefSel, h]

theorem exec_wrCoefSel_none {w : Word} (h : gridOperand w = none) (s : State) :
    exec (.wrCoefSel w) s = .next (raiseCmdError s) := by
  simp only [exec, execWrCoefSel, h]

/-- Outside INIT a legal grid is refused as an illegal one is. -/
theorem exec_wrCoefSel_not_init {s : State} (hd : s.driver ≠ .init) (w : Word) :
    exec (.wrCoefSel w) s = .next (raiseCmdError s) := by
  cases hg : gridOperand w with
  | none => exact exec_wrCoefSel_none hg s
  | some g => rw [exec_wrCoefSel_some hg, inInit_of_not_init hd]

@[simp] theorem gridGet_gridSet_same {α : Type} (a : PerGrid α) (g : Grid) (v : α) : gridGet (gridSet a g v) g = v := by
  rw [gridGet_gridSet, if_pos rfl]

theorem gridGet_gridSet_other {α : Type} (a : PerGrid α) {g g' : Grid} (h : g' ≠ g) (v : α) :
    gridGet (gridSet a g v) g' = gridGet a g' := by
  rw [gridGet_gridSet, if_neg h]

/-- Settles O16: a legal grid in INIT restarts its own count and overflow flag, and every other write raises the error. -/
theorem writeCoefSel : Obligations.WriteCoefSel := by
  intro s w
  refine ⟨fun g hd hw => ⟨selectGrid g s, ?_, rfl, ?_, ?_, fun g' hne => ⟨?_, ?_⟩⟩, fun h => ?_⟩
  · rw [exec_wrCoefSel_some ((gridOperand_eq_some_iff w g).mpr hw), inInit_of_init hd]
  · rw [selectGrid_cnt, gridGet_gridSet_same]
  · rw [selectGrid_ovf, gridGet_gridSet_same]
  · rw [selectGrid_cnt, gridGet_gridSet_other _ hne]
  · rw [selectGrid_ovf, gridGet_gridSet_other _ hne]
  · rcases h with hd | hw
    · exact exec_wrCoefSel_not_init hd w
    · exact exec_wrCoefSel_none (gridOperand_of_three hw) s

/-! ## COEF_LO (41_calibration.md R134) -/

theorem exec_wrCoefLo (w : Word) (s : State) :
    exec (.wrCoefLo w) s = .next (inInit s fun t => { t with coefLoHold := w }) := rfl

/-- Settles O17: the write is the shared conditional on INIT. -/
theorem writeCoefLo : Obligations.WriteCoefLo := by
  intro s w
  refine ⟨fun hd => ?_, fun hd => ?_⟩ <;> rw [exec_wrCoefLo]
  · rw [inInit_of_init hd]
  · rw [inInit_of_not_init hd, raiseCmdError]

/-! ## COEF_HI (41_calibration.md R135) -/

theorem exec_wrCoefHi (w : Word) (s : State) : exec (.wrCoefHi w) s = .next (inInit s (commitCoefficient w)) := rfl

theorem toNat_joinWords (hi lo : Word) : (joinWords hi lo).toNat = hi.toNat * 2 ^ 32 + lo.toNat := by
  rw [joinWords, BitVec.toNat_append, ← Nat.shiftLeft_add_eq_or_of_lt lo.isLt, Nat.shiftLeft_eq]

/-- A grid that is not full stores the value at the place of the next raw position, and advances. -/
theorem commitCoefficient_of_lt {s : State} (h : gridGet s.cnt s.coefSel < 6400) (w : Word) :
    commitCoefficient w s = { s with
      coef := gridSet s.coef s.coefSel (Cells.insert (gridGet s.coef s.coefSel) (P (gridGet s.cnt s.coefSel))
        (joinWords w s.coefLoHold))
      cnt := gridSet s.cnt s.coefSel (gridGet s.cnt s.coefSel + 1) } := by
  rw [← place_eq s h]
  exact if_pos h

/-- A full grid stores nothing more. -/
theorem commitCoefficient_of_ge {s : State} (h : 6400 ≤ gridGet s.cnt s.coefSel) (w : Word) :
    commitCoefficient w s = { s with ovf := gridSet s.ovf s.coefSel true } :=
  if_neg h.not_gt

/-- The table after a coefficient is stored: the new pattern at its place, every other entry as before. -/
theorem coefAt_commitCoefficient {s : State} (h : gridGet s.cnt s.coefSel < 6400) (w : Word) (g : Grid) (p : Nat) :
    coefAt (commitCoefficient w s) g p =
      if g = s.coefSel ∧ p = P (gridGet s.cnt s.coefSel) then joinWords w s.coefLoHold else coefAt s g p := by
  simp only [commitCoefficient_of_lt h, coefAt, gridGet_gridSet]
  by_cases hg : g = s.coefSel
  · subst hg
    rw [if_pos rfl, Cells.get, Cells.find_insert]
    by_cases hp : p = P (gridGet s.cnt s.coefSel)
    · rw [if_pos hp, if_pos ⟨rfl, hp⟩, Option.getD_some]
    · rw [if_neg hp, if_neg fun h => hp h.2, Cells.get]
  · rw [if_neg hg, if_neg fun h => hg h.1]

/-- Settles O18: in INIT the value is stored or the grid is full, and outside INIT the write is refused. -/
theorem writeCoefHi : Obligations.WriteCoefHi := by
  intro s w
  refine ⟨fun hd hn => ?_, fun hd hn => ?_, fun hd => ?_⟩ <;> rw [exec_wrCoefHi]
  · rw [inInit_of_init hd]
    refine ⟨_, rfl, ?_, ?_, fun g p hne => ?_, ?_, fun g hg => ?_⟩
    · rw [commitCoefficient_of_lt hn]
    · rw [coefAt_commitCoefficient hn, if_pos ⟨rfl, rfl⟩, toNat_joinWords]
    · rw [coefAt_commitCoefficient hn, if_neg (not_and_or.mpr hne)]
    · rw [commitCoefficient_of_lt hn, gridGet_gridSet_same]
    · rw [commitCoefficient_of_lt hn, gridGet_gridSet_other _ hg]
  · rw [inInit_of_init hd, commitCoefficient_of_ge hn]
    exact ⟨_, rfl, rfl, gridGet_gridSet_same _ _ _, fun g hg => gridGet_gridSet_other _ hg _⟩
  · rw [inInit_of_not_init hd, raiseCmdError]

/-! ## The complete table (41_calibration.md R136) -/

theorem gridComplete_iff (s : State) (g : Grid) :
    gridComplete s g = true ↔ gridGet s.cnt g = 6400 ∧ gridGet s.ovf g = false := by
  rw [gridComplete, Bool.and_eq_true, decide_eq_true_eq, Bool.not_eq_true']

theorem forall_grid_iff (p : Grid → Prop) : (∀ g, p g) ↔ (p .slope ∧ p .intercept) ∧ p .threshold := by
  refine ⟨fun h => ⟨⟨h _, h _⟩, h _⟩, ?_⟩
  rintro ⟨⟨hslope, hintercept⟩, hthreshold⟩ g
  cases g with
  | slope => exact hslope
  | intercept => exact hintercept
  | threshold => exact hthreshold

/-- Settles O25: `coef_ready` asks of each of the three grids that it is complete. -/
theorem tableCompleteness : Obligations.TableCompleteness := by
  intro s
  rw [coefReady, Bool.and_eq_true, Bool.and_eq_true, ← forall_grid_iff fun g => gridComplete s g = true]
  exact forall_congr' (gridComplete_iff s)

end Sys2Proof.Machine
end

section
/-! PROOF. CALIB of one pixel (41_calibration.md R138 to R140): the formula of each build variant, and the corner cases. A
canonical value is the only one of its units, so the sum with a zero gives back the intercept itself. -/

namespace Sys2Proof.Machine

/-! ## The formula (41_calibration.md R138, R139) -/

theorem calibValue_source {s : State} (hb : s.build.threshSub = false) (x : Sample) (p : Nat) :
    calibValue s x p = fadd64 (fmul64 (f64OfNat x.toNat) (fromBits64 (coefAt s .slope p)))
      (fromBits64 (coefAt s .intercept p)) := by
  simp only [calibValue, hb, Bool.false_eq_true, if_false]

theorem calibValue_threshSub {s : State} (hb : s.build.threshSub = true) (x : Sample) (p : Nat) :
    calibValue s x p = fadd64 (fmul64 (fsub64 (f64OfNat x.toNat) (fromBits64 (coefAt s .threshold p)))
      (fromBits64 (coefAt s .slope p))) (fromBits64 (coefAt s .intercept p)) := by
  simp only [calibValue, hb, if_true]

theorem exec_calib_of_lt {p : BitVec 13} (hp : p.toNat < 6400) (x : Sample) (s : State) :
    exec (.calib x p) s = .next (calibPixel s x p.toNat) :=
  if_pos hp

theorem exec_calib_of_ge {p : BitVec 13} (hp : 6400 ≤ p.toNat) (x : Sample) (s : State) :
    exec (.calib x p) s = .fault .noSuchPixel :=
  if_neg hp.not_gt

theorem calibPixel_writes (s : State) (x : Sample) (p : Nat) :
    calibPixel s x p = { s with
      wires := { spatial := s.wires.spatial, calibrated := (calibPixel s x p).wires.calibrated } } := rfl

/-- The calibrated values after CALIB of one pixel. -/
theorem calibratedAt_calibPixel {n : Nat} {s : State} (hr : Cells.Rising n s.wires.calibrated) (x : Sample) (p q : Nat) :
    calibratedAt (calibPixel s x p) q = if q = p then calibValue s x p else calibratedAt s q :=
  Cells.get_put hr p _ q

/-- Settles O40: CALIB writes its pixel's value on the wires and nothing else. -/
theorem calibFormula : Obligations.CalibFormula := by
  intro s x p
  refine ⟨fun hp hr => ?_, fun hp => exec_calib_of_ge hp x s⟩
  have hvalue : calibratedAt (calibPixel s x p.toNat) p.toNat = calibValue s x p.toNat := by
    rw [calibratedAt_calibPixel hr, if_pos rfl]
  refine ⟨_, exec_calib_of_lt hp x s, calibPixel_writes s x _, fun hb => ?_, fun hb => ?_, fun q hq => ?_⟩
  · rw [hvalue, calibValue_source hb]
  · rw [hvalue, calibValue_threshSub hb]
  · rw [calibratedAt_calibPixel hr, if_neg hq]

/-! ## Zero operands -/

theorem f64OfNat_zero : f64OfNat 0 = .fin false 0 0 := by
  rw [f64OfNat, Nat.zero_mul]
  exact if_pos rfl

/-- Zero times a finite value is a zero of the value's sign. -/
theorem fmul64_zero_fin (neg : Bool) (m q : Nat) : fmul64 (.fin false 0 0) (.fin neg m q) = .fin neg 0 0 := by
  have hunits : F64.units 0 0 * F64.units m q = 0 := by rw [F64.units, Nat.zero_mul, Nat.zero_mul]
  rw [fmul64, hunits, Bool.false_xor]
  exact if_pos rfl

/-- A normal significand with a larger exponent is more than any significand of 53 bits with a smaller one. -/
theorem lt_of_exponent_lt {m q m' q' : Nat} (hm : m < 2 ^ 53) (hm' : 2 ^ 52 ≤ m') (hq : q < q') :
    m * 2 ^ q < m' * 2 ^ q' := calc
  m * 2 ^ q < 2 ^ 53 * 2 ^ q := Nat.mul_lt_mul_of_pos_right hm (Nat.two_pow_pos q)
  _ = 2 ^ 52 * 2 ^ (q + 1) := by ring
  _ ≤ m' * 2 ^ q' := Nat.mul_le_mul hm' (Nat.pow_le_pow_right two_pos hq)

/-- The canonical form is unique: a larger exponent than another's is not 0, so its significand is normal. -/
theorem F64.canonical_unique {neg neg' : Bool} {m q m' q' : Nat} (h : (F64.fin neg m q).canonical = true)
    (h' : (F64.fin neg' m' q').canonical = true) (heq : m * 2 ^ q = m' * 2 ^ q') : m = m' ∧ q = q' := by
  simp only [F64.canonical, Bool.and_eq_true, Bool.or_eq_true, decide_eq_true_eq] at h h'
  obtain ⟨⟨hm, -⟩, hnormal⟩ := h
  obtain ⟨⟨hm', -⟩, hnormal'⟩ := h'
  rcases Nat.lt_trichotomy q q' with hq | rfl | hq
  · exact absurd heq (lt_of_exponent_lt hm (hnormal'.resolve_right (by omega)) hq).ne
  · exact ⟨Nat.eq_of_mul_eq_mul_right (Nat.two_pow_pos q) heq, rfl⟩
  · exact absurd heq (lt_of_exponent_lt hm' (hnormal.resolve_right (by omega)) hq).ne'

/-- Rounding the units of a canonical value gives back the value. -/
theorem roundUnits_units {neg : Bool} {m q : Nat} (h : (F64.fin neg m q).canonical = true) :
    roundUnits neg (F64.units m q) 0 = .fin neg m q := by
  obtain ⟨m', q', hround, hunits⟩ := roundUnits_canonical h 0
  obtain ⟨-, hcanonical, -⟩ := roundUnits_fin hround
  obtain ⟨rfl, rfl⟩ := F64.canonical_unique hcanonical h hunits
  rwa [pow_zero, mul_one] at hround

/-- The sign and the magnitude of a value that is not a zero, from its signed units. -/
theorem F64.signedUnits_of_ne_zero (neg : Bool) {m : Nat} (hm : m ≠ 0) (q : Nat) :
    F64.signedUnits neg m q ≠ 0 ∧ decide (F64.signedUnits neg m q < 0) = neg ∧
      (F64.signedUnits neg m q).natAbs = F64.units m q := by
  have hpos : 0 < F64.units m q := Nat.mul_pos (Nat.pos_of_ne_zero hm) (Nat.two_pow_pos q)
  generalize hu : F64.units m q = u at hpos
  cases neg <;> simp only [F64.signedUnits, hu, if_true, Bool.false_eq_true, if_false, decide_eq_true_eq,
    decide_eq_false_iff_not] <;> omega

/-- A zero plus a canonical value that is not a zero is that value. -/
theorem fadd64_zero_fin (neg₀ : Bool) {neg : Bool} {m q : Nat} (h : (F64.fin neg m q).canonical = true) (hm : m ≠ 0) :
    fadd64 (.fin neg₀ 0 0) (.fin neg m q) = .fin neg m q := by
  obtain ⟨hne, hsign, habs⟩ := F64.signedUnits_of_ne_zero neg hm q
  have hzero : F64.signedUnits neg₀ 0 0 = 0 := by cases neg₀ <;> rfl
  simp only [fadd64, hzero, zero_add, if_neg hne, hsign, habs]
  exact roundUnits_units h

/-! ## Corner cases (41_calibration.md R138, R140) -/

theorem fmul64_nan_right (a : F64) : fmul64 a .nan = .nan := (nan_results a).1

theorem fadd64_nan_left (a : F64) : fadd64 .nan a = .nan := rfl

theorem fadd64_nan_right (a : F64) : fadd64 a .nan = .nan := (nan_results a).2.2.1

/-- No NaN passes the domain test (41_calibration.md R140). -/
theorem calBin_nan : calBin .nan = none := by
  rw [calBin, (flt64_nan _).2, Bool.false_and]
  rfl

/-- CALIB of a zero sample is the sum of the zero times the slope and the intercept. -/
theorem calibValue_zero {s : State} (hb : s.build.threshSub = false) (p : Nat) :
    calibValue s 0#16 p =
      fadd64 (fmul64 (.fin false 0 0) (fromBits64 (coefAt s .slope p))) (fromBits64 (coefAt s .intercept p)) := by
  rw [calibValue_source hb, ← f64OfNat_zero]
  rfl

/-- Settles O41: a NaN goes through both operations, zero times an infinity is one, and a zero sample leaves the intercept. -/
theorem calibCornerCases : Obligations.CalibCornerCases := by
  intro s x p hb
  refine ⟨?_, fun neg hslope => ?_, fun n₁ m₁ q₁ n₂ m₂ q₂ hslope hintercept hm => ?_, calBin_nan⟩
  · rintro (hslope | hintercept) <;> rw [calibValue_source hb]
    · rw [hslope, fmul64_nan_right, fadd64_nan_left]
    · rw [hintercept, fadd64_nan_right]
  · have hproduct : fmul64 (.fin false 0 0) (.inf neg) = .nan := rfl
    rw [calibValue_zero hb, hslope, hproduct, fadd64_nan_left]
  · have hcanonical : (F64.fin n₂ m₂ q₂).canonical = true := hintercept ▸ fromBits64_canonical _
    rw [calibValue_zero hb, hslope, hintercept, fmul64_zero_fin, fadd64_zero_fin n₁ hcanonical hm]

end Sys2Proof.Machine
end

section
/-! PROOF. Scatter-adds (42_accumulator.md R166, R168, R169). The order of the updates does not matter: cells and overflow
record depend only on which cells are touched and on what each of them gains in all. -/

namespace Sys2Proof.Machine

/-! ## The same updates in another order -/

theorem updateTouches_perm {u v : List (Nat × Nat)} (h : u.Perm v) (a : Nat) : updateTouches u a ↔ updateTouches v a :=
  exists_congr fun _ => and_congr_left' h.mem_iff

theorem updateTotal_perm {u v : List (Nat × Nat)} (h : u.Perm v) (a : Nat) : updateTotal u a = updateTotal v a := by
  induction h with
  | nil => rfl
  | cons e _ ih => simp only [updateTotal, ih]
  | swap e e' l => simp only [updateTotal]; omega
  | trans _ _ ih ih' => exact ih.trans ih'

/-- Another order touches the same cells and adds the same to each. -/
theorem scatterAdd_perm {w n : Nat} {u v : List (Nat × Nat)} {c : CellList DWord} (o : Bool) (hw : w ≤ 64)
    (hc : Cells.Canonical 0#64 n c) (hu : ∀ e ∈ u, e.1 < n) (hperm : u.Perm v) :
    scatterAdd w u (c, o) = scatterAdd w v (c, o) := by
  have hv : ∀ e ∈ v, e.1 < n := fun e he => hu e (hperm.mem_iff.mpr he)
  have hcells : (scatterAdd w u (c, o)).1 = (scatterAdd w v (c, o)).1 := by
    refine Cells.ext_get (scatterAdd_canonical u c o hc hu) (scatterAdd_canonical v c o hc hv) fun a => ?_
    by_cases ha : updateTouches u a
    · refine BitVec.eq_of_toNat_eq ?_
      rw [scatterAdd_get_touched hw u c o hc hu ha, updateTotal_perm hperm,
        scatterAdd_get_touched hw v c o hc hv ((updateTouches_perm hperm a).mp ha)]
    · rw [scatterAdd_get_untouched u c o hc hu ha,
        scatterAdd_get_untouched v c o hc hv (mt (updateTouches_perm hperm a).mpr ha)]
  have hwrapped : (scatterAdd w u (c, o)).2 = (scatterAdd w v (c, o)).2 := by
    rw [Bool.eq_iff_iff, scatterAdd_wrapped hw u c o hc hu, scatterAdd_wrapped hw v c o hc hv]
    simp only [updateTouches_perm hperm, updateTotal_perm hperm]
  exact Prod.ext hcells hwrapped

/-- Settles O50, for any permutation of the updates. -/
theorem scatterAddOrderIndependent : Obligations.ScatterAddOrderIndependent :=
  fun _ _ _ _ _ o hw hc hu hperm => scatterAdd_perm o hw hc hu hperm

/-! ## One list of updates after another -/

theorem scatterAdd_append (w : Nat) (u v : List (Nat × Nat)) (acc : CellList DWord × Bool) :
    scatterAdd w (u ++ v) acc = scatterAdd w v (scatterAdd w u acc) := by
  induction u generalizing acc with
  | nil => rfl
  | cons e u ih => exact ih _

/-- Two lists of updates commute. -/
theorem scatterAdd_comm {w n : Nat} (hw : w ≤ 64) {u v : List (Nat × Nat)} {c : CellList DWord} (o : Bool)
    (hc : Cells.Canonical 0#64 n c) (hu : ∀ e ∈ u, e.1 < n) (hv : ∀ e ∈ v, e.1 < n) :
    scatterAdd w v (scatterAdd w u (c, o)) = scatterAdd w u (scatterAdd w v (c, o)) := by
  have huv : ∀ e ∈ u ++ v, e.1 < n := fun e he => (List.mem_append.mp he).elim (hu e) (hv e)
  rw [← scatterAdd_append, ← scatterAdd_append]
  exact scatterAdd_perm o hw hc huv List.perm_append_comm

/-- The record of a wrap is the one before, or that a cell wrapped now. -/
theorem scatterAdd_sticky (w : Nat) (u : List (Nat × Nat)) (c : CellList DWord) (o : Bool) :
    scatterAdd w u (c, o) = ((scatterAdd w u (c, false)).1, o || (scatterAdd w u (c, false)).2) := by
  induction u generalizing c o with
  | nil => exact Prod.ext rfl (Bool.or_false o).symm
  | cons e u ih =>
    simp only [scatterAdd]
    rw [ih, ih _ (false || _), Bool.false_or, Bool.or_assoc]

/-! ## What a scatter-add does to cells and record -/

theorem updateTotal_of_untouched {u : List (Nat × Nat)} {a : Nat} (ha : ¬ updateTouches u a) : updateTotal u a = 0 :=
  of_not_not (mt updateTouches_of_total ha)

section
variable {w n : Nat} (hw : w ≤ 64) {u : List (Nat × Nat)} {c c' : CellList DWord} {o o' : Bool}
  (hc : Cells.Canonical 0#64 n c) (hu : ∀ e ∈ u, e.1 < n) (hadd : (c', o') = scatterAdd w u (c, o))
include hw hc hu hadd

/-- Where every cell lies below `2 ^ w`, a cell no update goes to is reduced modulo `2 ^ w` already and has not wrapped. -/
theorem counts_of_scatterAdd (hlt : ∀ a, (Cells.get 0#64 c a).toNat < 2 ^ w) :
    (∀ a, (Cells.get 0#64 c' a).toNat = ((Cells.get 0#64 c a).toNat + updateTotal u a) % 2 ^ w) ∧
    (o' = true ↔ o = true ∨ ∃ a, 2 ^ w ≤ (Cells.get 0#64 c a).toNat + updateTotal u a) := by
  obtain ⟨rfl, rfl⟩ : c' = (scatterAdd w u (c, o)).1 ∧ o' = (scatterAdd w u (c, o)).2 := Prod.ext_iff.mp hadd
  refine ⟨fun a => ?_, ?_⟩
  · by_cases ha : updateTouches u a
    · exact scatterAdd_get_touched hw u c o hc hu ha
    · rw [scatterAdd_get_untouched u c o hc hu ha, updateTotal_of_untouched ha, Nat.add_zero, Nat.mod_eq_of_lt (hlt a)]
  · rw [scatterAdd_wrapped hw u c o hc hu]
    refine or_congr_right (exists_congr fun a => and_iff_right_of_imp fun hle => updateTouches_of_total fun hzero => ?_)
    rw [hzero, Nat.add_zero] at hle
    exact hle.not_gt (hlt a)

/-- A wrap only loses counts. -/
theorem get_le_of_scatterAdd (a : Nat) :
    (Cells.get 0#64 c' a).toNat ≤ (Cells.get 0#64 c a).toNat + updateTotal u a := by
  obtain rfl : c' = (scatterAdd w u (c, o)).1 := (Prod.ext_iff.mp hadd).1
  by_cases ha : updateTouches u a
  · rw [scatterAdd_get_touched hw u c o hc hu ha]
    exact Nat.mod_le _ _
  · rw [scatterAdd_get_untouched u c o hc hu ha]
    exact Nat.le_add_right _ _

/-- Without a wrap every cell gains all that is added to it. -/
theorem get_eq_of_scatterAdd (ho : o' = false) (a : Nat) :
    (Cells.get 0#64 c' a).toNat = (Cells.get 0#64 c a).toNat + updateTotal u a := by
  obtain ⟨rfl, rfl⟩ : c' = (scatterAdd w u (c, o)).1 ∧ o' = (scatterAdd w u (c, o)).2 := Prod.ext_iff.mp hadd
  by_cases ha : updateTouches u a
  · have hlt : (Cells.get 0#64 c a).toNat + updateTotal u a < 2 ^ w := by
      by_contra hle
      have hset := (scatterAdd_wrapped hw u c o hc hu).mpr (.inr ⟨a, ha, not_lt.mp hle⟩)
      exact Bool.false_ne_true (ho.symm.trans hset)
    rw [scatterAdd_get_touched hw u c o hc hu ha, Nat.mod_eq_of_lt hlt]
  · rw [scatterAdd_get_untouched u c o hc hu ha, updateTotal_of_untouched ha, Nat.add_zero]

/-- The total of an array grows by no more than the updates add (42_accumulator.md R168). -/
theorem sum_le_of_scatterAdd :
    ∑ a ∈ Finset.range n, (Cells.get 0#64 c' a).toNat ≤
      ∑ a ∈ Finset.range n, (Cells.get 0#64 c a).toNat + ∑ a ∈ Finset.range n, updateTotal u a := by
  rw [← Finset.sum_add_distrib]
  exact Finset.sum_le_sum fun a _ => get_le_of_scatterAdd hw hc hu hadd a

/-- The total of an array grows by all that the updates add when no cell wraps (42_accumulator.md R168). -/
theorem sum_eq_of_scatterAdd (ho : o' = false) :
    ∑ a ∈ Finset.range n, (Cells.get 0#64 c' a).toNat =
      ∑ a ∈ Finset.range n, (Cells.get 0#64 c a).toNat + ∑ a ∈ Finset.range n, updateTotal u a := by
  rw [← Finset.sum_add_distrib]
  exact Finset.sum_congr rfl fun a _ => get_eq_of_scatterAdd hw hc hu hadd ho a

end

end Sys2Proof.Machine
end

section
/-! PROOF. The operations of one commit on their arrays (42_accumulator.md R161 to R164): each ingest is one scatter-add
into its cells and its sticky flag, and APPLY_CALIBRATION is CALIB at every pixel. -/

namespace Sys2Proof.Machine

/-! ## Each ingest is one scatter-add -/

theorem ingestSpatialFrame_eq_scatterAdd (s : State) :
    ((ingestSpatialFrame s).sum, (ingestSpatialFrame s).sumOvf) =
      scatterAdd s.build.sumW (spatialUpdates s) (s.sum, s.sumOvf) := by
  rw [scatterAdd_sticky]
  unfold ingestSpatialFrame
  rfl

theorem ingestRawHistogram_eq_scatterAdd (s : State) :
    ((ingestRawHistogram s).rawhist, (ingestRawHistogram s).rhOvf) =
      scatterAdd s.build.histW (rawHistUpdates s) (s.rawhist, s.rhOvf) := by
  rw [scatterAdd_sticky]
  unfold ingestRawHistogram
  rfl

theorem ingestCalHistogram_eq_scatterAdd (s : State) :
    ((ingestCalHistogram s).calhist, (ingestCalHistogram s).chOvf) =
      scatterAdd s.build.histW (calHistUpdates s) (s.calhist, s.chOvf) := by
  rw [scatterAdd_sticky]
  unfold ingestCalHistogram
  rfl

/-! ## What the bins count -/

/-- The samples of raw bin `b` are those with `floor(x / 8)` equal to it (42_accumulator.md R162). -/
theorem rawBinCount_eq (s : State) (b : Nat) :
    rawBinCount s b = (List.range 6400).countP fun k => (sample s k).toNat / 8 = b := by
  simp only [rawBinCount, rawIndices_eq, rawBin_eq, Option.some.injEq]

theorem calBinCount_eq (s : State) (b : Nat) :
    calBinCount s b = (List.range 6400).countP fun k => calBin (calibratedAt s (P k)) = some b := by
  rw [calBinCount, rawIndices_eq]
  refine List.countP_congr fun k hk => ?_
  rw [place_eq s (List.mem_range.mp hk)]

/-! ## The statements of the operations -/

/-- Every pixel is the place of a raw index. -/
theorem forall_pixel_iff {p : Nat → Prop} : (∀ a, a < 6400 → p a) ↔ ∀ k, k < 6400 → p (P k) :=
  ⟨fun h _ hk => h _ (P_lt hk), fun h a ha => P_Q a ▸ h (Q a) (Q_lt ha)⟩

theorem exists_pixel_iff {p : Nat → Prop} : (∃ a, a < 6400 ∧ p a) ↔ ∃ k, k < 6400 ∧ p (P k) :=
  ⟨fun ⟨a, ha, h⟩ => ⟨Q a, Q_lt ha, (P_Q a).symm ▸ h⟩, fun ⟨k, hk, h⟩ => ⟨P k, P_lt hk, h⟩⟩

/-- Settles O42: CALIB's values are written to the wires at the places of the raw indices, which are all the pixels. -/
theorem applyCalibrationPerPixel : Obligations.ApplyCalibrationPerPixel := fun s =>
  ⟨applyCalibrationFrame s, rfl, applyCalibrationFrame_writes s,
    forall_pixel_iff.mpr fun _ hk => calibratedAt_applyCalibrationFrame s hk⟩

/-- Settles O43: every pixel is the place of one raw index, and gains its sample. -/
theorem ingestSpatialAdds : Obligations.IngestSpatialAdds := by
  intro s hb harrays
  have hw := (Build.ok_widths hb).1
  refine ⟨ingestSpatialFrame s, rfl, ingestSpatialFrame_writes s, ?_, ?_⟩
  · exact forall_pixel_iff.mpr fun k hk => sumAt_ingestSpatialFrame hw harrays.1 hk
  · rw [exists_pixel_iff]
    exact sumOvf_ingestSpatialFrame hw harrays.1

/-- Settles O44: a bin gains as many increments as samples fall in it. -/
theorem ingestRawHistCounts : Obligations.IngestRawHistCounts := by
  intro s hb harrays hlt count
  have hcounts := counts_of_scatterAdd (Build.ok_widths hb).2 harrays.2.1 (rawHistUpdates_lt s)
    (ingestRawHistogram_eq_scatterAdd s) hlt
  simp only [rawHistUpdates_total, rawBinCount_eq] at hcounts
  exact ⟨ingestRawHistogram s, rfl, ingestRawHistogram_writes s, hcounts⟩

/-- Settles O45: a bin gains as many increments as values fall in it; a value without a bin gives none. -/
theorem ingestCalHistCounts : Obligations.IngestCalHistCounts := by
  intro s hb harrays hlt count
  have hcounts := counts_of_scatterAdd (Build.ok_widths hb).2 harrays.2.2.1 (calHistUpdates_lt s)
    (ingestCalHistogram_eq_scatterAdd s) hlt
  simp only [calHistUpdates_total, calBinCount_eq] at hcounts
  exact ⟨ingestCalHistogram s, rfl, ingestCalHistogram_writes s, hcounts⟩

end Sys2Proof.Machine
end

section
/-! PROOF. The whole commit (42_accumulator.md R165, R166): what it adds to each accumulator is decided by the record in
the frame buffer, so it is one scatter-add for each, and two commits can change places. -/

namespace Sys2Proof.Machine

theorem exec_frameCommit (s : State) : exec .frameCommit s = .next (commitFrame s) := rfl

/-! ## What a commit adds -/

/-- What the record in the frame buffer adds to the sum image (42_accumulator.md R161). -/
def recordPixelUpdates (s : State) : List (Nat × Nat) := rawIndices.map fun k => (P k, (sample s k).toNat)

/-- What the record in the frame buffer adds to the calibrated histogram (42_accumulator.md R164). -/
def recordCalUpdates (s : State) : List (Nat × Nat) :=
  rawIndices.filterMap fun k => (calBin (calibValue s (sample s k) (P k))).map fun b => (b, 1)

theorem spatialUpdates_reorderRecord (s : State) : spatialUpdates (reorderRecord s) = recordPixelUpdates s :=
  List.map_congr_left fun k hk => by
    have hk' := mem_rawIndices.mp hk
    rw [place_eq _ hk', spatialAt_reorderRecord s hk']

theorem calHistUpdates_calibratedRecord (s : State) : calHistUpdates (calibratedRecord s) = recordCalUpdates s :=
  List.filterMap_congr fun k hk => by
    have hk' := mem_rawIndices.mp hk
    rw [place_eq _ hk', calibratedAt_calibratedRecord s hk']

theorem recordPixelUpdates_lt (s : State) : ∀ e ∈ recordPixelUpdates s, e.1 < 6400 :=
  spatialUpdates_reorderRecord s ▸ spatialUpdates_lt _

theorem recordCalUpdates_lt (s : State) : ∀ e ∈ recordCalUpdates s, e.1 < 1000 :=
  calHistUpdates_calibratedRecord s ▸ calHistUpdates_lt _

theorem recordPixelUpdates_total (s : State) {k : Nat} (hk : k < 6400) :
    updateTotal (recordPixelUpdates s) (P k) = (sample s k).toNat := by
  rw [← spatialUpdates_reorderRecord, spatialUpdates_total _ hk, spatialAt_reorderRecord s hk]

theorem recordCalUpdates_total (s : State) (b : Nat) : updateTotal (recordCalUpdates s) b = recordCalCount s b := by
  rw [← calHistUpdates_calibratedRecord, calHistUpdates_total, calBinCount_calibratedRecord]

theorem recordCalCount_eq (s : State) (b : Nat) :
    recordCalCount s b = (List.range 6400).countP fun k => calBin (calibValue s (sample s k) (P k)) = some b := by
  rw [recordCalCount, rawIndices_eq]

/-! ## A commit is one scatter-add for each accumulator -/

theorem commitFrame_sum_eq_scatterAdd (s : State) :
    ((commitFrame s).sum, (commitFrame s).sumOvf) =
      scatterAdd s.build.sumW (recordPixelUpdates s) (s.sum, s.sumOvf) := by
  rw [commitFrame_sum, commitFrame_sumOvf, ingestSpatialFrame_eq_scatterAdd, spatialUpdates_reorderRecord,
    reorderRecord_build, reorderRecord_sum, reorderRecord_sumOvf]

theorem commitFrame_rawhist_eq_scatterAdd (s : State) :
    ((commitFrame s).rawhist, (commitFrame s).rhOvf) =
      scatterAdd s.build.histW (rawHistUpdates s) (s.rawhist, s.rhOvf) := by
  rw [commitFrame_rawhist, commitFrame_rhOvf, ingestRawHistogram_eq_scatterAdd]

theorem commitFrame_calhist_eq_scatterAdd (s : State) :
    ((commitFrame s).calhist, (commitFrame s).chOvf) =
      scatterAdd s.build.histW (recordCalUpdates s) (s.calhist, s.chOvf) := by
  have hbuild : (calibratedRecord s).build = s.build := by simp [calibratedRecord]
  have hcells : (calibratedRecord s).calhist = s.calhist := by simp [calibratedRecord]
  have hflag : (calibratedRecord s).chOvf = s.chOvf := by simp [calibratedRecord]
  rw [commitFrame_calhist_eq, commitFrame_chOvf_eq, ingestCalHistogram_eq_scatterAdd, calHistUpdates_calibratedRecord,
    hbuild, hcells, hflag]

/-! ## The effect of a commit -/

/-- The sum image and its flag after a commit. -/
theorem commitFrame_sum_effect {s : State} (hw : s.build.sumW ≤ 64) (hc : Cells.Canonical 0#64 6400 s.sum) :
    (∀ k, k < 6400 →
      (sumAt (commitFrame s) (P k)).toNat = ((sumAt s (P k)).toNat + (sample s k).toNat) % 2 ^ s.build.sumW) ∧
    ((commitFrame s).sumOvf = true ↔ s.sumOvf = true ∨
      ∃ k, k < 6400 ∧ 2 ^ s.build.sumW ≤ (sumAt s (P k)).toNat + (sample s k).toNat) := by
  have hsum : ∀ p, sumAt (reorderRecord s) p = sumAt s p := fun p => by rw [sumAt, reorderRecord_sum, sumAt]
  refine ⟨fun k hk => ?_, ?_⟩
  · have hcell := sumAt_ingestSpatialFrame (s := reorderRecord s) hw (by rwa [reorderRecord_sum]) hk
    rw [hsum, spatialAt_reorderRecord s hk, reorderRecord_build] at hcell
    rw [sumAt, commitFrame_sum]
    exact hcell
  · rw [commitFrame_sumOvf, sumOvf_ingestSpatialFrame (s := reorderRecord s) hw (by rwa [reorderRecord_sum]),
      reorderRecord_sumOvf, reorderRecord_build]
    refine or_congr_right (exists_congr fun k => and_congr_right fun hk => ?_)
    rw [hsum, spatialAt_reorderRecord s hk]

/-- Settles O48: the record decides what each accumulator gains, and the frame is counted. -/
theorem frameCommitEffect : Obligations.FrameCommitEffect := by
  intro s hb harrays hraw hcal raw cal
  obtain ⟨hsumW, hhistW⟩ := Build.ok_widths hb
  obtain ⟨csum, craw, ccal, -⟩ := harrays
  obtain ⟨hsum, hsumOvf⟩ := commitFrame_sum_effect hsumW csum
  have hrawCounts := counts_of_scatterAdd hhistW craw (rawHistUpdates_lt s) (commitFrame_rawhist_eq_scatterAdd s) hraw
  have hcalCounts := counts_of_scatterAdd hhistW ccal (recordCalUpdates_lt s) (commitFrame_calhist_eq_scatterAdd s) hcal
  simp only [rawHistUpdates_total, rawBinCount_eq] at hrawCounts
  simp only [recordCalUpdates_total, recordCalCount_eq] at hcalCounts
  refine ⟨commitFrame s, exec_frameCommit s, commitFrame_writes s, hsum, hrawCounts.1, hcalCounts.1, hsumOvf,
    hrawCounts.2, hcalCounts.2, fun hcap => ?_, fun hcap => ?_⟩ <;> rw [commitFrame_driver, commitFrame_stopCause]
  · rw [if_pos hcap, if_pos hcap]
    exact ⟨rfl, rfl⟩
  · rw [if_neg hcap, if_neg hcap]
    exact ⟨rfl, rfl⟩

/-! ## Two commits in either order (42_accumulator.md R166, 20_memory.md R71) -/

/-- The parts of the state that decide what a commit adds agree. -/
structure SameRecord (t s : State) : Prop where
  build : t.build = s.build
  fbuf : t.fbuf = s.fbuf
  resets : t.resets = s.resets
  coef : t.coef = s.coef

namespace SameRecord

variable {s t : State} (h : SameRecord t s)
include h

theorem sample (k : Nat) : sample t k = Machine.sample s k := sample_congr h.build h.fbuf h.resets k

theorem pixelUpdates : recordPixelUpdates t = recordPixelUpdates s := by
  simp only [recordPixelUpdates, h.sample]

theorem rawHistUpdates : rawHistUpdates t = Machine.rawHistUpdates s := by
  simp only [Machine.rawHistUpdates, h.sample]

theorem calUpdates : recordCalUpdates t = recordCalUpdates s := by
  simp only [recordCalUpdates, h.sample, calibValue_congr h.build h.coef h.resets]

end SameRecord

@[simp] theorem withBuffer_build (b : CellList Byte) (s : State) : (withBuffer b s).build = s.build := rfl

@[simp] theorem withBuffer_fbuf (b : CellList Byte) (s : State) : (withBuffer b s).fbuf = b := rfl

@[simp] theorem withBuffer_resets (b : CellList Byte) (s : State) : (withBuffer b s).resets = s.resets := rfl

@[simp] theorem withBuffer_coef (b : CellList Byte) (s : State) : (withBuffer b s).coef = s.coef := rfl

/-- A commit leaves alone what decides the additions of the next record. -/
theorem sameRecord_after_commitFrame (s : State) (f g : CellList Byte) :
    SameRecord (withBuffer g (commitFrame (withBuffer f s))) (withBuffer g s) where
  build := by simp
  fbuf := by simp
  resets := by simp
  coef := by simp

/-- The commits of two records, one after the other. -/
def commitTwo (s : State) (f g : CellList Byte) : State := commitFrame (withBuffer g (commitFrame (withBuffer f s)))

section
variable (s : State) (f g : CellList Byte)

theorem commitTwo_sum : ((commitTwo s f g).sum, (commitTwo s f g).sumOvf) =
    scatterAdd s.build.sumW (recordPixelUpdates (withBuffer g s))
      (scatterAdd s.build.sumW (recordPixelUpdates (withBuffer f s)) (s.sum, s.sumOvf)) := by
  have hsame := sameRecord_after_commitFrame s f g
  rw [commitTwo, commitFrame_sum_eq_scatterAdd, hsame.pixelUpdates, hsame.build]
  exact congrArg _ (commitFrame_sum_eq_scatterAdd (withBuffer f s))

theorem commitTwo_rawhist : ((commitTwo s f g).rawhist, (commitTwo s f g).rhOvf) =
    scatterAdd s.build.histW (rawHistUpdates (withBuffer g s))
      (scatterAdd s.build.histW (rawHistUpdates (withBuffer f s)) (s.rawhist, s.rhOvf)) := by
  have hsame := sameRecord_after_commitFrame s f g
  rw [commitTwo, commitFrame_rawhist_eq_scatterAdd, hsame.rawHistUpdates, hsame.build]
  exact congrArg _ (commitFrame_rawhist_eq_scatterAdd (withBuffer f s))

theorem commitTwo_calhist : ((commitTwo s f g).calhist, (commitTwo s f g).chOvf) =
    scatterAdd s.build.histW (recordCalUpdates (withBuffer g s))
      (scatterAdd s.build.histW (recordCalUpdates (withBuffer f s)) (s.calhist, s.chOvf)) := by
  have hsame := sameRecord_after_commitFrame s f g
  rw [commitTwo, commitFrame_calhist_eq_scatterAdd, hsame.calUpdates, hsame.build]
  exact congrArg _ (commitFrame_calhist_eq_scatterAdd (withBuffer f s))

theorem commitTwo_frames : (commitTwo s f g).frames = s.frames + 1#64 + 1#64 := by
  rw [commitTwo, commitFrame_frames]
  exact congrArg (· + 1#64) (commitFrame_frames (withBuffer f s))

end

/-- Settles O51: the second record adds what it would have added first, and scatter-adds commute. -/
theorem commitOrderIndependent : Obligations.CommitOrderIndependent := by
  intro s f g hb harrays
  obtain ⟨hsumW, hhistW⟩ := Build.ok_widths hb
  obtain ⟨csum, craw, ccal, -⟩ := harrays
  have hsum := scatterAdd_comm hsumW s.sumOvf csum (recordPixelUpdates_lt (withBuffer f s))
    (recordPixelUpdates_lt (withBuffer g s))
  have hraw := scatterAdd_comm hhistW s.rhOvf craw (rawHistUpdates_lt (withBuffer f s))
    (rawHistUpdates_lt (withBuffer g s))
  have hcal := scatterAdd_comm hhistW s.chOvf ccal (recordCalUpdates_lt (withBuffer f s))
    (recordCalUpdates_lt (withBuffer g s))
  rw [← commitTwo_sum, ← commitTwo_sum, Prod.mk.injEq] at hsum
  rw [← commitTwo_rawhist, ← commitTwo_rawhist, Prod.mk.injEq] at hraw
  rw [← commitTwo_calhist, ← commitTwo_calhist, Prod.mk.injEq] at hcal
  have hframes : (commitTwo s f g).frames = (commitTwo s g f).frames := by rw [commitTwo_frames, commitTwo_frames]
  exact ⟨commitFrame (withBuffer f s), commitTwo s f g, commitFrame (withBuffer g s), commitTwo s g f,
    exec_frameCommit _, exec_frameCommit _, exec_frameCommit _, exec_frameCommit _,
    hsum.1, hraw.1, hcal.1, hsum.2, hraw.2, hcal.2, hframes⟩

end Sys2Proof.Machine
end

section
/-! PROOF. Conservation (42_accumulator.md R168): what one commit adds to the totals, and that every other operation keeps
them or clears them. -/

namespace Sys2Proof.Machine

/-! ## What one record adds in all -/

/-- Every sample of the record is counted once (42_accumulator.md R162). -/
theorem sum_rawHistUpdates_total (s : State) : ∑ b ∈ Finset.range 8192, updateTotal (rawHistUpdates s) b = 6400 := by
  simp only [rawHistUpdates_total, rawBinCount]
  rw [sum_countP_bin_eq, rawIndices_length]
  exact fun k _ => ⟨_, rawBin_lt (rawBin_eq (sample s k)), rawBin_eq _⟩

/-- Every calibrated value of the record is counted at most once (42_accumulator.md R164). -/
theorem sum_recordCalUpdates_total (s : State) :
    ∑ b ∈ Finset.range 1000, updateTotal (recordCalUpdates s) b ≤ 6400 := by
  simp only [recordCalUpdates_total, recordCalCount]
  exact (sum_countP_bin_le 1000 _ rawIndices).trans_eq rawIndices_length

/-- Every sample of the record is added to one pixel (42_accumulator.md R161). -/
theorem sum_recordPixelUpdates_total (s : State) :
    ∑ p ∈ Finset.range 6400, updateTotal (recordPixelUpdates s) p = ∑ k ∈ Finset.range 6400, (sample s k).toNat := by
  refine Finset.sum_nbij' Q P (fun p hp => ?_) (fun k hk => ?_) (fun p _ => P_Q p) (fun k _ => Q_P k) fun p hp => ?_
  · exact Finset.mem_range.mpr (Q_lt (Finset.mem_range.mp hp))
  · exact Finset.mem_range.mpr (P_lt (Finset.mem_range.mp hk))
  · rw [← recordPixelUpdates_total s (Q_lt (Finset.mem_range.mp hp)), P_Q]

/-! ## The totals after a commit -/

section
variable {s : State} (hb : s.build.ok = true) (harrays : Memory.wf s)
include hb harrays

theorem sum_rawhistAt_commitFrame (ho : (commitFrame s).rhOvf = false) :
    ∑ b ∈ Finset.range 8192, (rawhistAt (commitFrame s) b).toNat =
      ∑ b ∈ Finset.range 8192, (rawhistAt s b).toNat + 6400 := by
  have h := sum_eq_of_scatterAdd (Build.ok_widths hb).2 harrays.2.1 (rawHistUpdates_lt s)
    (commitFrame_rawhist_eq_scatterAdd s) ho
  rwa [sum_rawHistUpdates_total] at h

theorem sum_calhistAt_commitFrame_le :
    ∑ b ∈ Finset.range 1000, (calhistAt (commitFrame s) b).toNat ≤
      ∑ b ∈ Finset.range 1000, (calhistAt s b).toNat + 6400 :=
  (sum_le_of_scatterAdd (Build.ok_widths hb).2 harrays.2.2.1 (recordCalUpdates_lt s)
    (commitFrame_calhist_eq_scatterAdd s)).trans (Nat.add_le_add_left (sum_recordCalUpdates_total s) _)

theorem sum_sumAt_commitFrame (ho : (commitFrame s).sumOvf = false) :
    ∑ p ∈ Finset.range 6400, (sumAt (commitFrame s) p).toNat =
      ∑ p ∈ Finset.range 6400, (sumAt s p).toNat + ∑ k ∈ Finset.range 6400, (sample s k).toNat := by
  have h := sum_eq_of_scatterAdd (Build.ok_widths hb).1 harrays.1 (recordPixelUpdates_lt s)
    (commitFrame_sum_eq_scatterAdd s) ho
  rwa [sum_recordPixelUpdates_total] at h

end

/-! ## Conservation through the operations -/

namespace Conserved

variable {N S : Nat} {s : State}

/-- A commit counts one frame more, and its samples (42_accumulator.md R168). A flag that is 0 after it was 0 before. -/
theorem commitFrame (hb : s.build.ok = true) (harrays : Memory.wf s) (h : Conserved N S s) :
    Conserved (N + 1) (S + ∑ k ∈ Finset.range 6400, (sample s k).toNat) (commitFrame s) := by
  obtain ⟨hsumSticky, hrawSticky, -⟩ := commitFrame_sticky s
  constructor
  · have hframes := h.frames
    rw [commitFrame_frames]
    bv_omega
  · intro ho
    have hbefore := h.raw (Bool.eq_false_iff.mpr fun hs => Bool.false_ne_true (ho.symm.trans (hrawSticky hs)))
    rw [sum_rawhistAt_commitFrame hb harrays ho, hbefore, Nat.mul_succ]
  · have hbefore := h.cal
    have hadded := sum_calhistAt_commitFrame_le hb harrays
    omega
  · intro ho
    have hbefore := h.sum (Bool.eq_false_iff.mpr fun hs => Bool.false_ne_true (ho.symm.trans (hsumSticky hs)))
    rw [sum_sumAt_commitFrame hb harrays ho, hbefore]

end Conserved

/-- The elements that conservation speaks of. -/
def totals (s : State) : DWord × CellList DWord × CellList DWord × CellList DWord × Bool × Bool :=
  (s.frames, s.rawhist, s.calhist, s.sum, s.rhOvf, s.sumOvf)

theorem totals_frames {s t : State} (ht : totals t = totals s) : t.frames = s.frames := congrArg Prod.fst ht

theorem Conserved.of_totals {N S : Nat} {s t : State} (h : Conserved N S s) (ht : totals t = totals s) :
    Conserved N S t := by
  simp only [totals, Prod.mk.injEq] at ht
  obtain ⟨hframes, hraw, hcal, hsum, hrhOvf, hsumOvf⟩ := ht
  exact h.congr hframes hraw hcal hsum hrhOvf hsumOvf

theorem totals_inInit {f : State → State} {s : State} (hf : totals (f s) = totals s) :
    totals (inInit s f) = totals s := by
  by_cases hd : s.driver = .init
  · rw [inInit_of_init hd]; exact hf
  · rw [inInit_of_not_init hd]; rfl

theorem totals_commitCoefficient (w : Word) (s : State) : totals (commitCoefficient w s) = totals s := by
  unfold commitCoefficient
  simp only []
  split <;> rfl

theorem totals_latchReadback (w : Word) (s : State) : totals (latchReadback w s) = totals s := by
  rw [latchReadback_writes]; rfl

theorem totals_commandStart (s : State) : totals (commandStart s) = totals s := by
  unfold commandStart
  split
  · rfl
  · split
    · rfl
    · split <;> rfl

/-- CMD INIT clears the totals, or is refused while RUNNING (43_driver.md R193). -/
theorem commandInit_cases (s : State) :
    totals (commandInit s) = totals s ∨ (s.driver ≠ .running ∧ Conserved 0 0 (commandInit s)) := by
  unfold commandInit
  by_cases hd : s.driver = .running
  · rw [if_pos hd]; exact .inl rfl
  · rw [if_neg hd]; exact .inr ⟨hd, .of_clear rfl rfl rfl rfl⟩

/-! ## Bus accesses -/

/-- A write keeps the totals, or it is CMD INIT and clears them. -/
theorem writeInstr_totals {r : Reg} {w : Word} {s t : State} (he : exec (writeInstr r w) s = .next t) :
    totals t = totals s ∨ (writeInstr r w = .wrCmd 1#32 ∧ s.driver ≠ .running ∧ Conserved 0 0 t) := by
  cases r with
  | cmd =>
    obtain rfl : runCommand w s = t := Host.Outcome.next.inj he
    rcases runCommand_cases w s with ⟨-, hw⟩ | ⟨rfl, hw⟩ | ⟨-, hw⟩ | ⟨-, -, -, hw⟩ <;> rw [hw]
    · exact .inl rfl
    · exact (commandInit_cases s).imp_right fun h => ⟨rfl, h⟩
    · exact .inl (totals_commandStart s)
    · exact .inl rfl
  | coefSel =>
    cases hg : gridOperand w with
    | none =>
      cases (exec_wrCoefSel_none hg s).symm.trans he
      exact .inl rfl
    | some g =>
      cases (exec_wrCoefSel_some hg s).symm.trans he
      exact .inl (totals_inInit rfl)
  | config | capLo | capHi | coefLo =>
    cases he
    exact .inl (totals_inInit rfl)
  | coefHi =>
    cases he
    exact .inl (totals_inInit (totals_commitCoefficient w s))
  | rdCtrl =>
    cases he
    exact .inl (totals_latchReadback w s)
  | id | status | framesLo | framesHi | fill | coefStat | rdLo | rdHi =>
    cases he
    exact .inl rfl

theorem readInstr_totals {r : Reg} {s t : State} (he : exec (readInstr r) s = .next t) : totals t = totals s := by
  cases r <;> cases he <;> rfl

/-! ## Beats -/

theorem totals_acceptLastByte (d : Byte) (s : State) : totals (acceptLastByte d s) = totals (acceptByte d s) := by
  unfold acceptLastByte
  by_cases hd : (acceptByte d s).driver = .running
  · simp only [if_pos hd]
    rfl
  · simp only [if_neg hd]

/-- A held beat keeps the totals (43_driver.md R212). -/
theorem totals_whenAccepted (f : State → State) (s : State) :
    totals (whenAccepted s f) = totals s ∨ (s.driver = .running ∧ totals (whenAccepted s f) = totals (f s)) := by
  by_cases hd : s.driver = .running
  · exact .inr ⟨hd, congrArg totals (whenAccepted_running hd f)⟩
  · exact .inl (congrArg totals (whenAccepted_held hd f))

/-- A beat keeps the totals, or it delivers a byte that is accepted. -/
theorem decodeBeat_totals {b : Beat} {s t : State} (he : exec (decodeBeat b) s = .next t) :
    totals t = totals s ∨ (s.driver = .running ∧
      ∃ d, (decodeBeat b = .beatByte d ∨ decodeBeat b = .beatByteLast d) ∧ totals t = totals (acceptByte d s)) := by
  rcases decodeBeat_cases b with hi | hi | hi | hi <;> rw [hi] at he ⊢ <;> cases he
  · exact .inl (congrArg totals (ite_self s))
  · rcases totals_whenAccepted (acceptByte b.data) s with hkept | ⟨hd, haccepted⟩
    · exact .inl hkept
    · exact .inr ⟨hd, b.data, .inl rfl, haccepted⟩
  · rcases totals_whenAccepted (acceptLastByte b.data) s with hkept | ⟨hd, haccepted⟩
    · exact .inl hkept
    · exact .inr ⟨hd, b.data, .inr rfl, haccepted.trans (totals_acceptLastByte b.data s)⟩
  · rcases totals_whenAccepted endOfStream s with hkept | ⟨-, hended⟩
    · exact .inl hkept
    · exact .inl hended

/-- An accepted byte keeps the totals, or it is the last one of its record and the commit counts the record. -/
theorem acceptByte_totals {N S : Nat} {s t : State} (hi : Inv s) (h : Conserved N S s) (d : Byte)
    (ht : totals t = totals (acceptByte d s)) :
    totals t = totals s ∨ (s.fill = 12799 ∧ t.frames = s.frames + 1#64 ∧
      Conserved (N + 1)
        (S + ∑ k ∈ Finset.range 6400, (sample (withBuffer (Cells.insert s.fbuf 12799 d) s) k).toNat) t) := by
  by_cases hf : s.fill = 12799
  · have hstored := hi.storeByte d
    rw [hf] at hstored
    rw [acceptByte_of_eq hf, hf] at ht
    refine .inr ⟨hf, (totals_frames ht).trans (commitFrame_frames _), ?_⟩
    have hcommit := Conserved.commitFrame (s := withBuffer (Cells.insert s.fbuf 12799 d) s) hstored.build hstored.arrays
      (h.of_totals rfl)
    exact hcommit.of_totals ht
  · rw [acceptByte_of_ne hf] at ht
    exact .inl ht

/-! ## Steps -/

/-- Settles O49: a commit adds what the record adds in all, and every other step keeps the totals or clears them. -/
theorem commitConservation : Obligations.CommitConservation := by
  refine ⟨fun s hb harrays => ⟨commitFrame s, exec_frameCommit s, sum_rawhistAt_commitFrame hb harrays,
    sum_calhistAt_commitFrame_le hb harrays, sum_sumAt_commitFrame hb harrays⟩, fun s t N S hi h hstep => ?_⟩
  have hkept : totals t = totals s → Conserved N S t ∧ t.frames = s.frames :=
    fun ht => ⟨h.of_totals ht, totals_frames ht⟩
  rcases nextTurn_cases s with ⟨-, hn⟩ | ⟨rest, -, -, hn⟩ | ⟨rest, a, more, -, -, hn⟩ | ⟨rest, -, -, hn⟩ |
    ⟨rest, b, more, -, -, hn⟩ | ⟨rest, hs, hn⟩
  · cases (step_of_quiet hn).symm.trans hstep
    exact .inl (hkept rfl)
  · cases (step_of_quiet hn).symm.trans hstep
    exact .inl (hkept rfl)
  · have he := (step_of_run hn).symm.trans hstep
    rw [hn]
    rcases decodeBus_cases a with ha | ha <;> rw [ha] at he ⊢
    · rcases writeInstr_totals he with ht | ⟨hw, hd, ht⟩
      · exact .inl (hkept ht)
      · exact .inr (.inl ⟨ht, .inr ⟨_, congrArg (Turn.run · _) hw, hd⟩⟩)
    · have ht := readInstr_totals he
      exact .inl (hkept ht)
  · cases (step_of_quiet hn).symm.trans hstep
    exact .inl (hkept rfl)
  · have he := (step_of_run hn).symm.trans hstep
    rw [hn]
    rcases decodeBeat_totals he with ht | ⟨hd, d, hb, ht⟩
    · exact .inl (hkept ht)
    · rcases acceptByte_totals (s := { s with sched := rest, beats := offeredAfter s b more }) (hi.congr rfl)
        (h.of_totals rfl) d ht with ht | ⟨hf, hframes, hcounted⟩
      · exact .inl (hkept ht)
      · rcases hb with hb | hb <;> rw [hb]
        · exact .inr (.inr ⟨_, d, .inl rfl, hd, hf, hframes, hcounted⟩)
        · exact .inr (.inr ⟨_, d, .inr rfl, hd, hf, hframes, hcounted⟩)
  · cases (step_of_quiet hn).symm.trans hstep
    exact .inr (.inl ⟨.of_clear rfl rfl rfl rfl, .inl ⟨rest, hs⟩⟩)

end Sys2Proof.Machine
end

section
/-! PROOF. The bin of a calibrated value (42_accumulator.md R164). Rounding never crosses a binary64 value, so ten times a
value is rounded below 1000 exactly when the value is below 100; the value before 100 is the largest one counted. -/

namespace Sys2Proof.Machine

/-! ## Rounding does not cross a binary64 value -/

section
variable {x : ℚ} {neg neg' : Bool} {m q m' q' : Nat} (h : IsRounded x (.fin neg m q))
  (hcan : (F64.fin neg' m' q').canonical = true)
include h hcan

theorem IsRounded.le_of_canonical_le (hle : (F64.fin neg' m' q').value ≤ x) :
    (F64.fin neg' m' q').value ≤ (F64.fin neg m q).value := by
  by_contra hlt
  obtain ⟨-, -, -, -, hnearest⟩ := h
  have hdist := (hnearest neg' m' q' hcan).1
  rw [abs_of_nonneg (by linarith), abs_of_nonneg (by linarith)] at hdist
  linarith

theorem IsRounded.le_canonical_of_le (hle : x ≤ (F64.fin neg' m' q').value) :
    (F64.fin neg m q).value ≤ (F64.fin neg' m' q').value := by
  by_contra hlt
  obtain ⟨-, -, -, -, hnearest⟩ := h
  have hdist := (hnearest neg' m' q' hcan).1
  rw [abs_of_nonpos (by linarith), abs_of_nonpos (by linarith)] at hdist
  linarith

end

/-! ## The values on both sides of the bound -/

theorem F64.value_of_exponent {m q e : Nat} (h : q + e = 1074) : (F64.fin false m q).value = m / 2 ^ e := by
  have hq : (2 : ℚ) ^ q ≠ 0 := pow_ne_zero _ two_ne_zero
  have hsplit : (2 : ℚ) ^ 1074 = 2 ^ e * 2 ^ q := by rw [← pow_add, Nat.add_comm, h]
  rw [F64.value_fin, hsplit, mul_div_mul_right _ _ hq]
  exact one_mul _

/-- The largest value counted, 99.99999999999999. -/
theorem fromBits64_largestCounted : fromBits64 0x4058FFFFFFFFFFFF#64 = .fin false (25 * 2 ^ 48 - 1) 1028 := by decide

theorem value_largestCounted : (F64.fin false (25 * 2 ^ 48 - 1) 1028).value = 100 - 1 / 2 ^ 46 := by
  rw [F64.value_of_exponent (e := 46) rfl]
  norm_num

/-- A canonical value above the one before a normal one reaches the normal one. -/
theorem F64.units_le_of_pred_lt {m q m' q' : Nat} (hcan : (F64.fin false m q).canonical = true) (hm' : 2 ^ 52 < m')
    (hlt : (m' - 1) * 2 ^ q' < m * 2 ^ q) : m' * 2 ^ q' ≤ m * 2 ^ q := by
  rcases lt_or_ge q q' with hq | hq
  · exact absurd hlt (lt_of_exponent_lt (F64.canonical_lt hcan) (by omega) hq).not_gt
  · obtain ⟨j, rfl⟩ := Nat.exists_eq_add_of_le hq
    have hsplit : m * 2 ^ (q' + j) = m * 2 ^ j * 2 ^ q' := by ring
    rw [hsplit] at hlt ⊢
    exact Nat.mul_le_mul_right _ (by have := Nat.lt_of_mul_lt_mul_right hlt; omega)

theorem F64.value_lt_iff (m q m' q' : Nat) :
    (F64.fin false m q).value < (F64.fin false m' q').value ↔ m * 2 ^ q < m' * 2 ^ q' :=
  (F64.signedUnits_lt_iff false m q false m' q').symm.trans Int.ofNat_lt

theorem F64.value_true_nonpos (m q : Nat) : (F64.fin true m q).value ≤ 0 := by
  rw [F64.value_eq_exactValue true m q 0]
  exact exactValue_true_nonpos _ _

/-- Above the largest counted value the next one is 100. -/
theorem hundred_le_of_above_largestCounted {neg : Bool} {m q : Nat} (hcan : (F64.fin neg m q).canonical = true)
    (hlt : (F64.fin false (25 * 2 ^ 48 - 1) 1028).value < (F64.fin neg m q).value) :
    100 ≤ (F64.fin neg m q).value := by
  cases neg with
  | false =>
    have hunits := F64.units_le_of_pred_lt hcan (by decide) ((F64.value_lt_iff _ _ _ _).mp hlt)
    have hhundred : (F64.fin false (25 * 2 ^ 48) 1028).value = 100 := by
      rw [F64.value_of_exponent (e := 46) rfl]
      norm_num
    rw [← hhundred]
    exact not_lt.mp fun hvalue => ((F64.value_lt_iff _ _ _ _).mp hvalue).not_ge hunits
  | true =>
    have hnonpos := F64.value_true_nonpos m q
    rw [value_largestCounted] at hlt
    linarith

/-! ## The floor of a rounded number -/

theorem thousand_lt_overflowBound : 1000 < overflowBound := by
  have hpow : (1 : ℚ) ≤ 2 ^ 970 := one_le_pow₀ one_le_two
  rw [overflowBound]
  generalize (2 : ℚ) ^ 970 = B at hpow
  norm_num
  linarith

section
variable {x : ℚ} {v : F64} (h : IsRounded x v)
include h

/-- A number up to the binary64 value before 1000 is rounded below 1000. -/
theorem floorInt_of_rounded_below (hx0 : 0 ≤ x) (hx : x ≤ 1000 - 1 / 2 ^ 43) : ∃ b, floorInt v = some b ∧ b ≤ 999 := by
  have hbound := thousand_lt_overflowBound
  cases v with
  | nan => exact h.elim
  | inf neg =>
    cases neg with
    | false =>
      have hinf : overflowBound ≤ x := h
      linarith
    | true =>
      have hinf : x ≤ -overflowBound := h
      linarith
  | fin neg m q =>
    have hlow := h.le_of_canonical_le (F64.canonical_zero false) (by rw [F64.value_zero]; exact hx0)
    rw [F64.value_zero] at hlow
    have hlast : (F64.fin false (125 * 2 ^ 46 - 1) 1031).value = 1000 - 1 / 2 ^ 43 := by
      rw [F64.value_of_exponent (e := 43) rfl]
      norm_num
    have hhigh := h.le_canonical_of_le (by decide) (hx.trans_eq hlast.symm)
    obtain ⟨b, hb, hfloor, -⟩ := floorInt_of_nonneg hlow
    refine ⟨b, hb, ?_⟩
    have hb1000 : (b : ℚ) < 1000 := by
      rw [hlast] at hhigh
      linarith
    exact Nat.lt_succ_iff.mp (by exact_mod_cast hb1000)

/-- A number of at least 1000 is not rounded below 1000. -/
theorem floorInt_of_rounded_above (hx : 1000 ≤ x) {b : Nat} (hb : floorInt v = some b) : 1000 ≤ b := by
  cases v with
  | nan => cases hb
  | inf neg => cases hb
  | fin neg m q =>
    have hthousand : (F64.fin false (125 * 2 ^ 46) 1031).value = 1000 := by
      rw [F64.value_of_exponent (e := 43) rfl]
      norm_num
    have hlow := h.le_of_canonical_le (by decide) (hthousand.trans_le hx)
    rw [hthousand] at hlow
    obtain ⟨b', hb', -, hfloor⟩ := floorInt_of_nonneg (by linarith)
    obtain rfl : b' = b := Option.some.inj (hb'.symm.trans hb)
    have hb1000 : (1000 : ℚ) < b' + 1 := by linarith
    exact Nat.lt_succ_iff.mp (by exact_mod_cast hb1000)

end

/-! ## The bin -/

theorem calBin_eq_some_iff (v : F64) (b : Nat) :
    calBin v = some b ↔ flt64 (f64OfNat 0) v = true ∧ flt64 v (f64OfNat 10000) = true ∧
      floorInt (fmul64 v (f64OfNat 10)) = some b ∧ b ≤ 999 := by
  unfold calBin
  rw [← and_assoc, ← Bool.and_eq_true]
  by_cases hdomain : (flt64 (f64OfNat 0) v && flt64 v (f64OfNat 10000)) = true
  · rw [if_pos hdomain, and_iff_right hdomain]
    cases floorInt (fmul64 v (f64OfNat 10)) with
    | none => exact ⟨nofun, nofun⟩
    | some c =>
      by_cases hc : c ≤ 999
      · simp only [if_pos hc, Option.some.injEq]
        exact ⟨fun h => ⟨h, h ▸ hc⟩, fun h => h.1⟩
      · simp only [if_neg hc, Option.some.injEq]
        exact ⟨nofun, fun h => absurd (h.1 ▸ h.2) hc⟩
  · rw [if_neg hdomain]
    exact ⟨nofun, fun h => absurd h.1 hdomain⟩

/-- Every natural number below 2^53 lies between the infinities. -/
theorem flt64_f64OfNat_inf {x : Nat} (hx : x < 2 ^ 53) (neg : Bool) :
    flt64 (f64OfNat x) (.inf neg) = !neg ∧ flt64 (.inf neg) (f64OfNat x) = neg := by
  obtain ⟨m, q, hf, -⟩ := f64OfNat_exact hx
  rw [hf]
  exact ⟨rfl, rfl⟩

theorem flt64_f64OfNat_fin {x : Nat} (hx : x < 2 ^ 53) (neg : Bool) (m q : Nat) :
    (flt64 (f64OfNat x) (.fin neg m q) = true ↔ x < (F64.fin neg m q).value) ∧
    (flt64 (.fin neg m q) (f64OfNat x) = true ↔ (F64.fin neg m q).value < x) := by
  obtain ⟨m', q', hf, -, hvalue⟩ := f64OfNat_exact hx
  rw [hf] at hvalue ⊢
  rw [← hvalue]
  exact ⟨flt64_fin_iff _ _ _ _ _ _, flt64_fin_iff _ _ _ _ _ _⟩

/-- The product with a natural number is rounded to some value; naming it keeps `IsRounded` from computing the product. -/
theorem exists_rounded_fmul64_f64OfNat {x : Nat} (hx : x < 2 ^ 53) (neg : Bool) (m q : Nat) :
    ∃ r, fmul64 (.fin neg m q) (f64OfNat x) = r ∧ IsRounded ((F64.fin neg m q).value * x) r := by
  obtain ⟨m', q', hf, -, hvalue⟩ := f64OfNat_exact hx
  rw [hf] at hvalue ⊢
  rw [← hvalue]
  exact ⟨_, rfl, isRounded_fmul64 neg m q false m' q'⟩

/-- A finite value is counted exactly if it is positive and not above the largest counted one. -/
theorem exists_calBin_fin_iff {neg : Bool} {m q : Nat} (hcan : (F64.fin neg m q).canonical = true) :
    (∃ b, calBin (.fin neg m q) = some b) ↔ 0 < (F64.fin neg m q).value ∧
      ¬ (F64.fin false (25 * 2 ^ 48 - 1) 1028).value < (F64.fin neg m q).value := by
  obtain ⟨r, hr, hround⟩ := exists_rounded_fmul64_f64OfNat (x := 10) (by decide) neg m q
  simp only [calBin_eq_some_iff, (flt64_f64OfNat_fin (x := 0) (by decide) neg m q).1,
    (flt64_f64OfNat_fin (x := 10000) (by decide) neg m q).2, Nat.cast_zero, Nat.cast_ofNat, hr]
  rw [Nat.cast_ofNat] at hround
  constructor
  · rintro ⟨b, hpos, -, hb, hle⟩
    refine ⟨hpos, fun habove => ?_⟩
    have hhundred := hundred_le_of_above_largestCounted hcan habove
    have hb1000 := floorInt_of_rounded_above hround (by linarith) hb
    omega
  · rintro ⟨hpos, hnot⟩
    rw [value_largestCounted, not_lt] at hnot
    obtain ⟨b, hb, hle⟩ := floorInt_of_rounded_below hround (by linarith) (by norm_num at hnot ⊢; linarith)
    exact ⟨b, hpos, by norm_num at hnot ⊢; linarith, hb, hle⟩

/-- Settles O46: the domain test drops the NaN and the infinities, and finite values are counted up to the one before
100. -/
theorem calibratedCountedRange : Obligations.CalibratedCountedRange := by
  intro v hcan
  refine ⟨calBin_eq_some_iff v, ?_⟩
  rw [fromBits64_largestCounted]
  cases v with
  | nan =>
    rw [calBin_nan]
    exact ⟨nofun, fun h => absurd rfl h.2.1⟩
  | inf neg =>
    have hlow := (flt64_f64OfNat_inf (x := 0) (by decide) neg).1
    have hhigh := (flt64_f64OfNat_inf (x := 10000) (by decide) neg).2
    simp only [calBin_eq_some_iff, hlow, hhigh]
    cases neg with
    | false => exact ⟨nofun, nofun⟩
    | true => exact ⟨nofun, nofun⟩
  | fin neg m q =>
    rw [exists_calBin_fin_iff hcan, (flt64_f64OfNat_fin (x := 0) (by decide) neg m q).1, Nat.cast_zero,
      ← Bool.not_eq_true, flt64_fin_iff]
    exact and_congr_right fun _ => (and_iff_right nofun).symm

end Sys2Proof.Machine
end

section
/-! PROOF. The driver's bus writes and commands (43_driver.md R191 to R199): one equation for each branch of each. -/

namespace Sys2Proof.Machine

/-! ## Writes that configure (43_driver.md R195 to R197, R199) -/

theorem toNat_lowWord (v : DWord) : (lowWord v).toNat = v.toNat % 2 ^ 32 := by simp [lowWord]

theorem toNat_highWord (v : DWord) : (highWord v).toNat = v.toNat / 2 ^ 32 := by
  have hlt : v.toNat / 2 ^ 32 < 2 ^ 32 := Nat.div_lt_of_lt_mul v.isLt
  rw [highWord, BitVec.extractLsb'_toNat, Nat.shiftRight_eq_div_pow, Nat.mod_eq_of_lt hlt]

theorem capEnOperand_eq (w : Word) : capEnOperand w = decide (w.toNat % 2 = 1) := Nat.testBit_zero w.toNat

/-- Settles O12: each of the eight raises the error and does nothing else. -/
theorem readOnlyWritesIgnored : Obligations.ReadOnlyWritesIgnored := by
  intro s w i hi
  simp only [List.mem_cons, List.not_mem_nil, or_false] at hi
  rcases hi with rfl | rfl | rfl | rfl | rfl | rfl | rfl | rfl <;> rfl

theorem exec_wrConfig (w : Word) (s : State) :
    exec (.wrConfig w) s = .next (inInit s fun t => { t with capEn := capEnOperand w }) := rfl

theorem exec_wrCapLo (w : Word) (s : State) :
    exec (.wrCapLo w) s = .next (inInit s fun t => { t with cap := joinWords (highWord t.cap) w }) := rfl

theorem exec_wrCapHi (w : Word) (s : State) :
    exec (.wrCapHi w) s = .next (inInit s fun t => { t with cap := joinWords w (lowWord t.cap) }) := rfl

/-- Settles O13: the write is the shared conditional on INIT, and its operand is bit 0. -/
theorem writeConfig : Obligations.WriteConfig := by
  intro s w
  refine ⟨fun hd => ?_, fun hd => ?_⟩ <;> rw [exec_wrConfig]
  · rw [inInit_of_init hd, capEnOperand_eq]
  · rw [inInit_of_not_init hd, raiseCmdError]

/-- Settles O14: each write joins its operand to the half of `cap` that it keeps. -/
theorem writeCapWords : Obligations.WriteCapWords := by
  intro s w
  refine ⟨fun hd => ?_, fun hd => ?_, fun hd => ⟨?_, ?_⟩⟩
  · rw [exec_wrCapLo, inInit_of_init hd]
    exact ⟨_, rfl, rfl, by rw [toNat_joinWords, toNat_highWord]⟩
  · rw [exec_wrCapHi, inInit_of_init hd]
    exact ⟨_, rfl, rfl, by rw [toNat_joinWords, toNat_lowWord]⟩
  · rw [exec_wrCapLo, inInit_of_not_init hd, raiseCmdError]
  · rw [exec_wrCapHi, inInit_of_not_init hd, raiseCmdError]

/-! ## RD_CTRL (43_driver.md R198) -/

/-- The selection is one of the six arrays and the index an element of it. -/
def legalReadback (w : Word) : Prop :=
  (selOperand w).toNat < 6 ∧ (idxOperand w).toNat < readbackLength (selOperand w)

/-- The element is of an accumulator, and those are being written. -/
def unspecifiedReadback (w : Word) (s : State) : Prop := (selOperand w).toNat ≤ 2 ∧ s.driver = .running

theorem latchReadback_illegal {w : Word} (h : ¬ legalReadback w) (s : State) :
    latchReadback w s =
      { s with rdIdx := idxOperand w, rdSel := selOperand w, rdBuf := 0#64, cmdErr := true } := by
  refine if_pos ?_
  rwa [legalReadback, not_and_or, not_lt, not_lt] at h

/-- A legal selection latches a drawn value or the element. -/
theorem latchReadback_legal {w : Word} (h : legalReadback w) (s : State) :
    latchReadback w s =
      if (selOperand w).toNat ≤ 2 ∧ s.driver = .running then
        { s with
          rdIdx := idxOperand w, rdSel := selOperand w, rdBuf := Config.draw64 s.draws, draws := s.draws + 1 }
      else
        { s with
          rdIdx := idxOperand w, rdSel := selOperand w
          rdBuf := readbackValue s (selOperand w) (idxOperand w).toNat } := by
  refine if_neg ?_
  rwa [legalReadback, ← not_le, ← not_le, ← not_or] at h

theorem latchReadback_drawn {w : Word} {s : State} (h : legalReadback w) (hu : unspecifiedReadback w s) :
    latchReadback w s = { s with
      rdIdx := idxOperand w, rdSel := selOperand w, rdBuf := Config.draw64 s.draws, draws := s.draws + 1 } := by
  rw [latchReadback_legal h]
  exact if_pos hu

theorem latchReadback_element {w : Word} {s : State} (h : legalReadback w) (hu : ¬ unspecifiedReadback w s) :
    latchReadback w s = { s with
      rdIdx := idxOperand w, rdSel := selOperand w
      rdBuf := readbackValue s (selOperand w) (idxOperand w).toNat } := by
  rw [latchReadback_legal h]
  exact if_neg hu

/-- The selection is stored, legal or not. -/
theorem latchReadback_selection (w : Word) (s : State) :
    (latchReadback w s).rdIdx = idxOperand w ∧ (latchReadback w s).rdSel = selOperand w := by
  unfold latchReadback
  simp only []
  split
  · exact ⟨rfl, rfl⟩
  · split <;> exact ⟨rfl, rfl⟩

theorem latchReadback_cmdErr_of_legal {w : Word} (h : legalReadback w) (s : State) :
    (latchReadback w s).cmdErr = s.cmdErr := by
  rw [latchReadback_legal h]
  split <;> rfl

/-- Settles O15: an illegal selection, a drawn value, and an element of each of the six arrays. -/
theorem writeReadbackControl : Obligations.WriteReadbackControl := by
  intro s w
  rw [← selOperand_toNat, ← idxOperand_toNat]
  intro idx sel len
  have hlegal : sel < 6 → idx < len → legalReadback w := fun hsel hidx =>
    ⟨hsel, hidx.trans_eq (readbackLength_eq _).symm⟩
  have helement {v : DWord} (hsel : sel < 6) (hidx : idx < len) (hu : ¬ unspecifiedReadback w s)
      (hv : readbackValue s (selOperand w) idx = v) :
      (latchReadback w s).rdBuf = v ∧ (latchReadback w s).draws = s.draws := by
    rw [latchReadback_element (hlegal hsel hidx) hu]
    exact ⟨hv, rfl⟩
  obtain ⟨hrdIdx, hrdSel⟩ := latchReadback_selection w s
  refine ⟨latchReadback w s, rfl, congrArg _ hrdIdx, congrArg _ hrdSel, latchReadback_writes w s, fun h => ?_,
    fun ⟨hsel, hidx⟩ => latchReadback_cmdErr_of_legal (hlegal hsel hidx) s, fun ⟨hsel, hidx, hd⟩ => ?_,
    fun hd hidx => ?_, fun hidx => ?_⟩
  · rw [latchReadback_illegal (by rwa [legalReadback, readbackLength_eq, not_and_or, not_lt, not_lt])]
    exact ⟨rfl, rfl, rfl⟩
  · rw [latchReadback_drawn (hlegal (by omega) hidx) ⟨hsel, hd⟩]
    exact ⟨rfl, rfl⟩
  · have hu : ¬ unspecifiedReadback w s := fun hu => hd hu.2
    refine ⟨fun h => ?_, fun h => ?_, fun h => ?_⟩ <;>
      exact helement (by omega) hidx hu
        (by simp only [readbackValue, show (selOperand w).toNat = _ from h])
  · have hu : 2 < sel → ¬ unspecifiedReadback w s := fun h hu => absurd hu.1 (not_le.mpr h)
    refine ⟨fun h => ?_, fun h => ?_, fun h => ?_⟩ <;>
      exact helement (by omega) hidx (hu (by omega))
        (by simp only [readbackValue, show (selOperand w).toNat = _ from h])

/-! ## Commands (43_driver.md R191 to R194) -/

/-- The legal command words are 0, 1 and 2. -/
theorem legalCommand_iff (w : Word) :
    (w.toNat / 16 = 0 ∧ w.toNat % 16 ≤ 2) ↔ w = 0#32 ∨ w = 1#32 ∨ w = 2#32 := by
  simp only [← BitVec.toNat_inj, BitVec.toNat_ofNat]
  omega

/-- Settles O19: the legal words are dispatched one by one, and every other word raises the error. -/
theorem commandWordDispatch : Obligations.CommandWordDispatch := by
  intro s w
  refine ⟨fun h => ⟨?_, rfl⟩, fun h => ?_, rfl, rfl, rfl⟩
  · have hw : ¬ (w = 0#32 ∨ w = 1#32 ∨ w = 2#32) := by
      rw [← legalCommand_iff]
      omega
    rcases runCommand_cases w s with ⟨h0, -⟩ | ⟨h1, -⟩ | ⟨h2, -⟩ | ⟨-, -, -, herror⟩
    · exact absurd (.inl h0) hw
    · exact absurd (.inr (.inl h1)) hw
    · exact absurd (.inr (.inr h2)) hw
    · exact congrArg Host.Outcome.next herror
  · rcases (legalCommand_iff w).mp h with rfl | rfl | rfl <;> exact ⟨rfl, _, rfl⟩

/-- Settles O20: NOP answers the state it runs in. -/
theorem commandNopChangesNothing : Obligations.CommandNopChangesNothing := fun _ => rfl

theorem exec_cmdInit (s : State) : exec .cmdInit s = .next (commandInit s) := rfl

theorem exec_cmdStart (s : State) : exec .cmdStart s = .next (commandStart s) := rfl

theorem commandInit_of_running {s : State} (hd : s.driver = .running) : commandInit s = raiseCmdError s := if_pos hd

theorem commandInit_of_not_running {s : State} (hd : s.driver ≠ .running) :
    commandInit s = { s with
      sum := [], rawhist := [], calhist := [], frames := 0#64, fill := 0, stopCause := .none
      cfgErr := false, cmdErr := false, sumOvf := false, rhOvf := false, chOvf := false, driver := .init } := if_neg hd

theorem commandStart_of_not_init {s : State} (hd : s.driver ≠ .init) : commandStart s = raiseCmdError s := if_pos hd

theorem commandStart_of_incomplete {s : State} (hd : s.driver = .init) (hr : coefReady s = false) :
    commandStart s = raiseConfigError s := by
  rw [commandStart, if_neg (not_not_intro hd), if_pos (by rw [hr]; rfl)]

/-- With a complete table START looks at the cap. -/
theorem commandStart_of_complete {s : State} (hd : s.driver = .init) (hr : coefReady s = true) :
    commandStart s =
      if s.capEn = true ∧ s.cap = 0#64 then { s with cfgErr := false, driver := .stopped, stopCause := .cap }
      else { s with cfgErr := false, driver := .running } := by
  rw [commandStart, if_neg (not_not_intro hd), if_neg (by rw [hr]; decide)]
  simp only [Bool.and_eq_true, beq_iff_eq]

namespace Commands

/-- Settles O21: an array that lists nothing reads 0 everywhere. -/
theorem commandInit : Obligations.CommandInit := by
  intro s
  refine ⟨fun hd => ?_, fun hd => ?_⟩ <;> rw [exec_cmdInit]
  · rw [commandInit_of_running hd, raiseCmdError]
  · rw [commandInit_of_not_running hd]
    exact ⟨_, rfl, rfl, fun _ => rfl, fun _ => rfl, fun _ => rfl⟩

/-- Settles O22: the table is checked before the cap. -/
theorem commandStart : Obligations.CommandStart := by
  intro s
  refine ⟨fun hd => ?_, fun hd ⟨g, hg⟩ => ?_, fun hd hall => ?_⟩ <;> rw [exec_cmdStart]
  · rw [commandStart_of_not_init hd, raiseCmdError]
  · have hr : coefReady s = false := by
      rw [← Bool.not_eq_true, tableCompleteness]
      intro hall
      obtain ⟨hcnt, hovf⟩ := hall g
      exact hg.elim (absurd hcnt) fun h => absurd (hovf.symm.trans h) Bool.false_ne_true
    rw [commandStart_of_incomplete hd hr, raiseConfigError]
  · rw [commandStart_of_complete hd ((tableCompleteness s).mpr hall)]
    exact ⟨fun hcap => by rw [if_pos hcap], fun hcap => by rw [if_neg hcap]⟩

end Commands

end Sys2Proof.Machine
end

section
/-! PROOF. What the driver's bus reads return (43_driver.md R200 to R211): the words the block packs from fields side by
side, and the halves of a 64-bit quantity. -/

namespace Sys2Proof.Machine

/-! ## Fields side by side (10_state.md R36 to R51) -/

@[simp] theorem toNat_flagWord (b : Bool) : (flagWord b).toNat = b.toNat := by cases b <;> rfl

/-- The word has the value `n`, and no bit at or above bit `k`. -/
structure PackedBelow (k n : Nat) (w : Word) : Prop where
  value : w.toNat = n
  bound : n < 2 ^ k

namespace PackedBelow

variable {k n : Nat} {w : Word}

theorem of_lt (h : w.toNat < 2 ^ k) : PackedBelow k w.toNat w := ⟨rfl, h⟩

/-- The bits above the fields packed so far are 0. -/
theorem mono (h : PackedBelow k n w) {k' : Nat} (hk : k ≤ k') : PackedBelow k' n w :=
  ⟨h.value, h.bound.trans_le (Nat.pow_le_pow_right (by decide) hk)⟩

/-- A field of `j` bits is packed at bit `k`. -/
theorem or_field (h : PackedBelow k n w) {j : Nat} {v : Word} (hv : v.toNat < 2 ^ j) (hk : k + j ≤ 32) :
    PackedBelow (k + j) (n + 2 ^ k * v.toNat) (w ||| v <<< k) := by
  obtain ⟨rfl, hlow⟩ := h
  have hfield : 2 ^ k * (v.toNat + 1) ≤ 2 ^ (k + j) := by
    rw [Nat.pow_add]
    exact Nat.mul_le_mul_left _ hv
  have hbound : w.toNat + 2 ^ k * v.toNat < 2 ^ (k + j) := by
    rw [Nat.mul_succ] at hfield
    omega
  have hword : 2 ^ k * v.toNat < 2 ^ 32 :=
    (Nat.le_add_left _ _).trans_lt (hbound.trans_le (Nat.pow_le_pow_right (by decide) hk))
  refine ⟨?_, hbound⟩
  rw [BitVec.toNat_or, BitVec.toNat_shiftLeft, Nat.shiftLeft_eq, Nat.mul_comm, Nat.mod_eq_of_lt hword, Nat.or_comm,
    ← Nat.two_pow_add_eq_or_of_lt hlow, Nat.add_comm]

/-- A flag is packed at bit `k`. -/
theorem or_flag (h : PackedBelow k n w) (b : Bool) (hk : k + 1 ≤ 32) :
    PackedBelow (k + 1) (n + 2 ^ k * b.toNat) (w ||| flagWord b <<< k) := by
  rw [← toNat_flagWord]
  exact h.or_field (by rw [toNat_flagWord]; exact b.toNat_lt) hk

end PackedBelow

/-! ## Reads (20_memory.md R66) -/

/-- A read of `r` returns the word whose value is `n`, and changes nothing else. -/
theorem exec_readInstr_value {r : Reg} (hr : r ≠ .framesLo) {s : State} {n : Nat} (hn : (readValue r s).toNat = n) :
    ∃ t, exec (readInstr r) s = .next t ∧ t = { s with rdata := t.rdata } ∧ t.rdata.toNat = n :=
  ⟨_, exec_readInstr hr s, rfl, hn⟩

/-! ## STATUS (43_driver.md R202, 10_state.md R38) -/

theorem toNat_driverCode_lt (d : Driver) : (driverCode d).toNat < 2 ^ 2 := by cases d <;> decide

theorem toNat_stopCauseCode_lt (c : StopCause) : (stopCauseCode c).toNat < 2 ^ 2 := by cases c <;> decide

/-- STATUS packs its fields in rising order, with the hardwired 0 of FMT_ERR at bit 6 (60_exceptions.md R242). -/
theorem toNat_statusWord (s : State) :
    (statusWord s).toNat =
      (driverCode s.driver).toNat + 2 ^ 2 * (stopCauseCode s.stopCause).toNat + 2 ^ 4 * s.cfgErr.toNat +
        2 ^ 5 * s.cmdErr.toNat + 2 ^ 7 * s.sumOvf.toNat + 2 ^ 8 * s.rhOvf.toNat + 2 ^ 9 * s.chOvf.toNat +
        2 ^ 10 * (coefReady s).toNat + 2 ^ 11 * s.build.threshSub.toNat +
        2 ^ 12 * (byteOrderIsBig s.build.byteOrder).toNat := by
  have hdriver := PackedBelow.of_lt (toNat_driverCode_lt s.driver)
  have hcodes := hdriver.or_field (toNat_stopCauseCode_lt s.stopCause) (by decide)
  have herrors := ((hcodes.or_flag s.cfgErr (by decide)).or_flag s.cmdErr (by decide)).mono (k' := 7) (by decide)
  have hflags := ((herrors.or_flag s.sumOvf (by decide)).or_flag s.rhOvf (by decide)).or_flag s.chOvf (by decide)
  exact (((hflags.or_flag (coefReady s) (by decide)).or_flag s.build.threshSub (by decide)).or_flag
    (byteOrderIsBig s.build.byteOrder) (by decide)).value

/-- Settles O24: the value of the packed word, with the codes of 10_state.md R22, R23 and R38 for its first two and its
last field. -/
theorem readStatusFields : Obligations.ReadStatusFields := by
  intro s
  refine exec_readInstr_value (r := .status) (by decide) ((toNat_statusWord s).trans ?_)
  cases s.driver <;> cases s.stopCause <;> cases s.build.byteOrder <;> rfl

/-! ## The other reads -/

/-- Settles O23: the four words are constants of the register map. -/
theorem readConstants : Obligations.ReadConstants := fun _ => ⟨rfl, rfl, rfl, rfl⟩

/-- Settles O26: the flag and the two halves of `cap`. -/
theorem readConfigAndCap : Obligations.ReadConfigAndCap := fun s =>
  ⟨exec_readInstr_value (r := .config) (by decide) (toNat_flagWord s.capEn),
    exec_readInstr_value (r := .capLo) (by decide) (toNat_lowWord s.cap),
    exec_readInstr_value (r := .capHi) (by decide) (toNat_highWord s.cap)⟩

theorem exec_rdFramesLo (s : State) : exec .rdFramesLo s = .next (readFramesLo s) := rfl

/-- Settles O27: the two halves of `frames`, one returned and one latched. -/
theorem readFramesLoLatches : Obligations.ReadFramesLoLatches := fun s =>
  ⟨_, exec_rdFramesLo s, rfl, toNat_lowWord s.frames, toNat_highWord s.frames⟩

theorem toNat_fillWord {s : State} (h : s.fill < 12800) : (fillWord s).toNat = s.fill := by
  rw [fillWord, BitVec.toNat_ofNat]
  omega

theorem toNat_coefSelWord (s : State) : (coefSelWord s).toNat = gridCode s.coefSel := by
  have hlt := gridCode_lt s.coefSel
  rw [coefSelWord, BitVec.toNat_ofNat]
  omega

theorem toNat_coefStatWord {s : State} (h : gridGet s.cnt s.coefSel ≤ 6400) :
    (coefStatWord s).toNat = gridGet s.cnt s.coefSel + 2 ^ 13 * (gridGet s.ovf s.coefSel).toNat := by
  have hcnt : PackedBelow 13 (gridGet s.cnt s.coefSel) (BitVec.ofNat 32 (gridGet s.cnt s.coefSel % 2 ^ 13)) := by
    refine ⟨?_, by omega⟩
    rw [BitVec.toNat_ofNat]
    omega
  exact (hcnt.or_flag _ (by decide)).value

/-- Settles O29: within their ranges the numbers fit their fields. -/
theorem readFillAndLoadStatus : Obligations.ReadFillAndLoadStatus := fun s =>
  ⟨fun h => exec_readInstr_value (r := .fill) (by decide) (toNat_fillWord h),
    exec_readInstr_value (r := .coefSel) (by decide) (toNat_coefSelWord s),
    fun h => exec_readInstr_value (r := .coefStat) (by decide) (toNat_coefStatWord h)⟩

theorem toNat_rdCtrlWord (s : State) : (rdCtrlWord s).toNat = s.rdSel.toNat * 2 ^ 16 + s.rdIdx.toNat := by
  have hidx : PackedBelow 14 s.rdIdx.toNat (s.rdIdx.setWidth 32) :=
    ⟨BitVec.toNat_setWidth_of_le (by decide), s.rdIdx.isLt⟩
  have hsel : (s.rdSel.setWidth 32).toNat = s.rdSel.toNat := BitVec.toNat_setWidth_of_le (by decide)
  have hword := ((hidx.mono (k' := 16) (by decide)).or_field (j := 3) (hsel.trans_lt s.rdSel.isLt) (by decide)).value
  rw [rdCtrlWord, BitVec.or_comm, hword, hsel]
  omega

/-- Settles O30: the selection at its two places, and the two halves of `rd_buf`. -/
theorem readWindow : Obligations.ReadWindow := fun s =>
  ⟨exec_readInstr_value (r := .rdCtrl) (by decide) (toNat_rdCtrlWord s),
    exec_readInstr_value (r := .rdLo) (by decide) (toNat_lowWord s.rdBuf),
    exec_readInstr_value (r := .rdHi) (by decide) (toNat_highWord s.rdBuf)⟩

end Sys2Proof.Machine
end

section
/-! PROOF. The stream beats (43_driver.md R212 to R217): what an accepted beat does, and that a held one does
nothing. -/

namespace Sys2Proof.Machine

theorem exec_beatNull (s : State) : exec .beatNull s = .next (whenAccepted s fun t => t) := rfl

theorem exec_beatByte (d : Byte) (s : State) : exec (.beatByte d) s = .next (whenAccepted s (acceptByte d)) := rfl

theorem exec_beatByteLast (d : Byte) (s : State) :
    exec (.beatByteLast d) s = .next (whenAccepted s (acceptLastByte d)) := rfl

theorem exec_beatEos (s : State) : exec .beatEos s = .next (whenAccepted s endOfStream) := rfl

/-! ## Held beats (43_driver.md R212) -/

/-- Whatever beat is at the front, outside RUNNING it does nothing. -/
theorem exec_decodeBeat_held {s : State} (hd : s.driver ≠ .running) (b : Beat) : exec (decodeBeat b) s = .next s := by
  rcases decodeBeat_cases b with hb | hb | hb | hb <;> rw [hb]
  · rw [exec_beatNull, whenAccepted_held hd]
  · rw [exec_beatByte, whenAccepted_held hd]
  · rw [exec_beatByteLast, whenAccepted_held hd]
  · rw [exec_beatEos, whenAccepted_held hd]

/-- Outside RUNNING the stream's turn leaves its beats offered. -/
theorem streamTurn_held {s : State} (hd : s.driver ≠ .running) :
    streamTurn s = .quiet s ∨ ∃ b, streamTurn s = .run (decodeBeat b) s := by
  rcases hb : s.beats with _ | ⟨b, more⟩
  · exact .inl (streamTurn_nil hb)
  · refine .inr ⟨b, ?_⟩
    rw [streamTurn_cons hb, offeredAfter, if_neg hd, ← hb]

/-- Settles O8: the turn keeps the front beat, and the beat does nothing. -/
theorem heldBeatStaysOffered : Obligations.HeldBeatStaysOffered := by
  intro s hd
  refine ⟨fun rest hs => ?_, fun d => ⟨?_, ?_, ?_, ?_⟩⟩
  · rcases streamTurn_held (s := { s with sched := rest }) hd with hq | ⟨b, hr⟩
    · exact step_of_quiet ((nextTurn_stream hs).trans hq)
    · exact (step_of_run ((nextTurn_stream hs).trans hr)).trans
        (exec_decodeBeat_held (s := { s with sched := rest }) hd b)
  · rw [exec_beatNull, whenAccepted_held hd]
  · rw [exec_beatByte, whenAccepted_held hd]
  · rw [exec_beatByteLast, whenAccepted_held hd]
  · rw [exec_beatEos, whenAccepted_held hd]

/-! ## Accepted beats (43_driver.md R213 to R217) -/

/-- Settles O32: NULL is accepted, and its effect is the identity. -/
theorem beatNullChangesNothing : Obligations.BeatNullChangesNothing := fun s hd => by
  rw [exec_beatNull, whenAccepted_running hd]

/-- The frame buffer after a byte is stored at `i`. -/
theorem fbufAt_storeByte (s : State) (i : Nat) (d : Byte) (j : Nat) :
    fbufAt (withBuffer (Cells.insert s.fbuf i d) s) j = if j = i then d else fbufAt s j := by
  simp only [fbufAt, withBuffer, Cells.get, Cells.find_insert]
  split <;> rfl

/-- Settles O33: the byte is stored, and then it is counted or completes the record. -/
theorem beatByteStoresOrCommits : Obligations.BeatByteStoresOrCommits := by
  intro s d hd
  rw [exec_beatByte, whenAccepted_running hd]
  refine ⟨withBuffer (Cells.insert s.fbuf s.fill d) s, rfl, fbufAt_storeByte s s.fill d, fun hf => ?_, fun hf => ?_⟩
  · rw [acceptByte_of_ne hf]
  · exact ⟨_, congrArg Host.Outcome.next (acceptByte_of_eq hf d), exec_frameCommit _⟩

/-- After a byte the driver is as before, or the byte completed the record and with it the cap was reached
(42_accumulator.md R165). -/
theorem acceptByte_driver_cases (d : Byte) (s : State) :
    (acceptByte d s).driver = s.driver ∨
    (s.fill = 12799 ∧ s.capEn = true ∧ (acceptByte d s).frames = s.cap ∧ (acceptByte d s).driver = .stopped ∧
      (acceptByte d s).stopCause = .cap) := by
  by_cases hf : s.fill = 12799
  · rw [acceptByte_of_eq hf, commitFrame_driver, commitFrame_stopCause, commitFrame_frames]
    by_cases hcap : s.capEn = true ∧ s.frames + 1#64 = s.cap
    · obtain ⟨hen, hreached⟩ := hcap
      exact .inr ⟨hf, hen, hreached, if_pos ⟨hen, hreached⟩, if_pos ⟨hen, hreached⟩⟩
    · exact .inl (if_neg hcap)
  · rw [acceptByte_of_ne hf]
    exact .inl rfl

theorem acceptLastByte_of_running {d : Byte} {s : State} (h : (acceptByte d s).driver = .running) :
    acceptLastByte d s = endOfStream (acceptByte d s) := if_pos h

theorem acceptLastByte_of_stopped {d : Byte} {s : State} (h : (acceptByte d s).driver ≠ .running) :
    acceptLastByte d s = acceptByte d s := if_neg h

/-- Settles O34: a byte stops the block only by the cap. -/
theorem beatByteLastEndsStream : Obligations.BeatByteLastEndsStream := by
  intro s d hd
  rw [exec_beatByte, exec_beatByteLast, whenAccepted_running hd, whenAccepted_running hd]
  refine ⟨acceptByte d s, rfl, fun hu => ?_, fun hu => ?_⟩
  · rw [acceptLastByte_of_running hu, endOfStream]
  · rcases acceptByte_driver_cases d s with hkept | ⟨-, -, -, -, hcause⟩
    · exact absurd (hkept.trans hd) hu
    · exact ⟨congrArg Host.Outcome.next (acceptLastByte_of_stopped hu), hcause⟩

/-- Settles O35: EOS is accepted, and its effect is the end of the stream. -/
theorem beatEosEndsStream : Obligations.BeatEosEndsStream := fun s hd => by
  rw [exec_beatEos, whenAccepted_running hd, endOfStream]

end Sys2Proof.Machine
end

section
/-! PROOF. Two rules of every step: which steps change the driver state (43_driver.md R190), and that only RD FRAMES_LO
and reset change the latch (R205, R206). -/

namespace Sys2Proof.Machine

/-! ## The transitions of the driver state (43_driver.md R190) -/

/-- Running `i` in `s` moves the driver state to that of `t`. -/
inductive DriverMove (i : Instr) (s t : State) : Prop where
  | init (hi : i = .wrCmd 1#32) (hs : s.driver = .stopped) (ht : t.driver = .init) (hcause : t.stopCause = .none)
  | start (hi : i = .wrCmd 2#32) (hs : s.driver = .init) (hr : coefReady s = true)
      (ht : (t.driver = .running ∧ ¬ (s.capEn = true ∧ s.cap = 0#64)) ∨
        (t.driver = .stopped ∧ t.stopCause = .cap ∧ s.capEn = true ∧ s.cap = 0#64))
  | cap (d : Byte) (hi : i = .beatByte d ∨ i = .beatByteLast d) (hs : s.driver = .running) (hf : s.fill = 12799)
      (ht : t.driver = .stopped) (hcause : t.stopCause = .cap) (hen : s.capEn = true) (hframes : t.frames = s.cap)
  | eos (hi : i = .beatEos ∨ ∃ d, i = .beatByteLast d) (hs : s.driver = .running) (ht : t.driver = .stopped)
      (hcause : t.stopCause = .eos)

/-- Either branch of the conditional on INIT keeps an element that the effect and `cmd_err` keep. -/
theorem inInit_keeps {α : Type} (element : State → α) {s : State} {f : State → State}
    (he : element (raiseCmdError s) = element s) (hf : element (f s) = element s) :
    element (inInit s f) = element s := by
  unfold inInit
  split
  · exact hf
  · exact he

/-- What WR COEF_HI may write (41_calibration.md R135). -/
theorem commitCoefficient_writes (w : Word) (s : State) :
    commitCoefficient w s = { s with
      coef := (commitCoefficient w s).coef, cnt := (commitCoefficient w s).cnt
      ovf := (commitCoefficient w s).ovf } := by
  unfold commitCoefficient
  simp only []
  split <;> rfl

theorem commandInit_moves (s : State) :
    (commandInit s).driver = s.driver ∨ DriverMove (.wrCmd 1#32) s (commandInit s) := by
  cases hd : s.driver with
  | init =>
    rw [commandInit_of_not_running (by simp [hd])]
    exact .inl rfl
  | running =>
    rw [commandInit_of_running hd]
    exact .inl hd
  | stopped =>
    rw [commandInit_of_not_running (by simp [hd])]
    exact .inr (.init rfl hd rfl rfl)

theorem commandStart_moves (s : State) :
    (commandStart s).driver = s.driver ∨ DriverMove (.wrCmd 2#32) s (commandStart s) := by
  by_cases hd : s.driver = .init
  · cases hr : coefReady s with
    | false =>
      rw [commandStart_of_incomplete hd hr]
      exact .inl rfl
    | true =>
      rw [commandStart_of_complete hd hr]
      by_cases hcap : s.capEn = true ∧ s.cap = 0#64
      · rw [if_pos hcap]
        exact .inr (.start rfl hd hr (.inr ⟨rfl, rfl, hcap⟩))
      · rw [if_neg hcap]
        exact .inr (.start rfl hd hr (.inl ⟨rfl, hcap⟩))
  · rw [commandStart_of_not_init hd]
    exact .inl rfl

theorem runCommand_moves (w : Word) (s : State) :
    (runCommand w s).driver = s.driver ∨ DriverMove (.wrCmd w) s (runCommand w s) := by
  rcases runCommand_cases w s with ⟨-, hw⟩ | ⟨rfl, hw⟩ | ⟨rfl, hw⟩ | ⟨-, -, -, hw⟩ <;> rw [hw]
  · exact .inl rfl
  · exact commandInit_moves s
  · exact commandStart_moves s
  · exact .inl rfl

/-- Among the writes only the commands move the driver. -/
theorem writeInstr_moves {r : Reg} {w : Word} {s t : State} (he : exec (writeInstr r w) s = .next t) :
    t.driver = s.driver ∨ DriverMove (writeInstr r w) s t := by
  cases r with
  | cmd =>
    cases he
    exact runCommand_moves w s
  | coefSel =>
    cases hg : gridOperand w with
    | none =>
      cases (exec_wrCoefSel_none hg s).symm.trans he
      exact .inl rfl
    | some g =>
      cases (exec_wrCoefSel_some hg s).symm.trans he
      exact .inl (inInit_keeps State.driver rfl rfl)
  | config | capLo | capHi | coefLo =>
    cases he
    exact .inl (inInit_keeps State.driver rfl rfl)
  | coefHi =>
    cases he
    exact .inl (inInit_keeps State.driver rfl (by rw [commitCoefficient_writes]))
  | rdCtrl =>
    cases he
    exact .inl (by rw [latchReadback_writes])
  | id | status | framesLo | framesHi | fill | coefStat | rdLo | rdHi =>
    cases he
    exact .inl rfl

theorem driver_readInstr {r : Reg} {s t : State} (he : exec (readInstr r) s = .next t) : t.driver = s.driver := by
  cases r <;> cases he <;> rfl

theorem decodeBus_moves {a : BusAccess} {s t : State} (he : exec (decodeBus a) s = .next t) :
    t.driver = s.driver ∨ DriverMove (decodeBus a) s t := by
  rcases decodeBus_cases a with ha | ha <;> rw [ha] at he ⊢
  · exact writeInstr_moves he
  · exact .inl (driver_readInstr he)

theorem acceptByte_moves {s : State} (hd : s.driver = .running) (d : Byte) :
    (acceptByte d s).driver = s.driver ∨ DriverMove (.beatByte d) s (acceptByte d s) := by
  rcases acceptByte_driver_cases d s with hkept | ⟨hf, hen, hframes, hstopped, hcause⟩
  · exact .inl hkept
  · exact .inr (.cap d (.inl rfl) hd hf hstopped hcause hen hframes)

/-- The last byte always stops the block: by the cap, or else by the end of the stream. -/
theorem acceptLastByte_moves {s : State} (hd : s.driver = .running) (d : Byte) :
    DriverMove (.beatByteLast d) s (acceptLastByte d s) := by
  rcases acceptByte_driver_cases d s with hkept | ⟨hf, hen, hframes, hstopped, hcause⟩
  · rw [acceptLastByte_of_running (hkept.trans hd)]
    exact .eos (.inr ⟨d, rfl⟩) hd rfl rfl
  · rw [acceptLastByte_of_stopped (by rw [hstopped]; decide)]
    exact .cap d (.inr rfl) hd hf hstopped hcause hen hframes

theorem decodeBeat_moves {b : Beat} {s t : State} (he : exec (decodeBeat b) s = .next t) :
    t.driver = s.driver ∨ DriverMove (decodeBeat b) s t := by
  by_cases hd : s.driver = .running
  · rcases decodeBeat_cases b with hb | hb | hb | hb <;> rw [hb] at he ⊢
    · rw [exec_beatNull, whenAccepted_running hd] at he
      cases he
      exact .inl rfl
    · rw [exec_beatByte, whenAccepted_running hd] at he
      cases he
      exact acceptByte_moves hd b.data
    · rw [exec_beatByteLast, whenAccepted_running hd] at he
      cases he
      exact .inr (acceptLastByte_moves hd b.data)
    · rw [exec_beatEos, whenAccepted_running hd] at he
      cases he
      exact .inr (.eos (.inl rfl) hd rfl rfl)
  · cases (exec_decodeBeat_held hd b).symm.trans he
    exact .inl rfl

/-- The turn that runs an operation changes no element of the block before it. -/
theorem DriverMove.of_turn {i : Instr} {s t : State} {sched : List Agent} {busQueue : List BusAccess}
    {beats : List Beat} (h : DriverMove i { s with sched := sched, busQueue := busQueue, beats := beats } t) :
    DriverMove i s t := by
  cases h with
  | init hi hs ht hcause => exact .init hi hs ht hcause
  | start hi hs hr ht => exact .start hi hs hr ht
  | cap d hi hs hf ht hcause hen hframes => exact .cap d hi hs hf ht hcause hen hframes
  | eos hi hs ht hcause => exact .eos hi hs ht hcause

/-- A step moves the driver state by a reset or by the operation it runs, or not at all. -/
theorem step_moves {s t : State} (h : step s = .next t) :
    t.driver = s.driver ∨ (∃ rest, s.sched = .reset :: rest ∧ t.driver = .init) ∨
    ∃ i u, nextTurn s = .run i u ∧ DriverMove i s t := by
  rcases nextTurn_cases s with ⟨-, hn⟩ | ⟨rest, -, -, hn⟩ | ⟨rest, a, more, -, -, hn⟩ | ⟨rest, -, -, hn⟩ |
    ⟨rest, b, more, -, -, hn⟩ | ⟨rest, hs, hn⟩
  · cases (step_of_quiet hn).symm.trans h
    exact .inl rfl
  · cases (step_of_quiet hn).symm.trans h
    exact .inl rfl
  · have he := (step_of_run hn).symm.trans h
    exact (decodeBus_moves he).imp_right fun hm => .inr ⟨_, _, hn, hm.of_turn⟩
  · cases (step_of_quiet hn).symm.trans h
    exact .inl rfl
  · have he := (step_of_run hn).symm.trans h
    exact (decodeBeat_moves he).imp_right fun hm => .inr ⟨_, _, hn, hm.of_turn⟩
  · cases (step_of_quiet hn).symm.trans h
    exact .inr (.inl ⟨rest, hs, rfl⟩)

/-- Settles O53: the moves of the operations are the listed transitions. -/
theorem driverTransitions : Obligations.DriverTransitions := by
  intro s t h hne
  rcases step_moves h with hkept | hreset | ⟨i, u, hn, hm⟩
  · exact absurd hkept hne
  · exact .inl hreset
  rw [hn]
  cases hm with
  | init hi hs ht hcause => exact .inr (.inl ⟨u, hi ▸ rfl, hs, ht, hcause⟩)
  | start hi hs hr ht => exact .inr (.inr (.inl ⟨u, hi ▸ rfl, hs, hr, ht⟩))
  | cap d hi hs hf ht hcause hen hframes =>
    have hrun := hi.imp (congrArg (Turn.run · u)) (congrArg (Turn.run · u))
    exact .inr (.inr (.inr (.inl ⟨u, d, hrun, hs, hf, ht, hcause, hen, hframes⟩)))
  | eos hi hs ht hcause =>
    have hrun := hi.imp (congrArg (Turn.run · u)) (Exists.imp fun _ => congrArg (Turn.run · u))
    exact .inr (.inr (.inr (.inr ⟨u, hrun, hs, ht, hcause⟩)))

/-! ## The latch of FRAMES_HI (43_driver.md R205, R206) -/

section

variable (s : State)

theorem framesLatchHi_whenAccepted {f : State → State} (hf : (f s).framesLatchHi = s.framesLatchHi) :
    (whenAccepted s f).framesLatchHi = s.framesLatchHi := by
  unfold whenAccepted
  split
  · exact hf
  · rfl

theorem framesLatchHi_commandInit : (commandInit s).framesLatchHi = s.framesLatchHi := by
  unfold commandInit
  split <;> rfl

theorem framesLatchHi_commandStart : (commandStart s).framesLatchHi = s.framesLatchHi := by
  unfold commandStart
  split <;> [rfl; split <;> [rfl; split <;> rfl]]

theorem framesLatchHi_runCommand (w : Word) : (runCommand w s).framesLatchHi = s.framesLatchHi := by
  rcases runCommand_cases w s with ⟨-, hw⟩ | ⟨-, hw⟩ | ⟨-, hw⟩ | ⟨-, -, -, hw⟩ <;> rw [hw]
  · exact framesLatchHi_commandInit s
  · exact framesLatchHi_commandStart s
  · rfl

theorem framesLatchHi_acceptByte (d : Byte) : (acceptByte d s).framesLatchHi = s.framesLatchHi := by
  by_cases hf : s.fill = 12799
  · rw [acceptByte_of_eq hf]
    exact commitFrame_framesLatchHi _
  · rw [acceptByte_of_ne hf]
    rfl

theorem framesLatchHi_acceptLastByte (d : Byte) : (acceptLastByte d s).framesLatchHi = s.framesLatchHi := by
  have hbyte := framesLatchHi_acceptByte s d
  by_cases hd : (acceptByte d s).driver = .running
  · rw [acceptLastByte_of_running hd]
    exact hbyte
  · rw [acceptLastByte_of_stopped hd]
    exact hbyte

end

/-- No operation but RD FRAMES_LO writes the latch. -/
theorem exec_keeps_framesLatchHi {i : Instr} {s t : State} (hi : i ≠ .rdFramesLo) (h : exec i s = .next t) :
    t.framesLatchHi = s.framesLatchHi := by
  cases i with
  | rdFramesLo => exact absurd rfl hi
  | wrId | wrStatus | wrFramesLo | wrFramesHi | wrFill | wrCoefStat | wrRdLo | wrRdHi | cmdIllegal | cmdNop
  | rdId | rdCmd | rdStatus | rdConfig | rdCapLo | rdCapHi | rdFramesHi | rdFill | rdCoefSel | rdCoefLo
  | rdCoefHi | rdCoefStat | rdRdCtrl | rdRdLo | rdRdHi =>
    obtain rfl := Host.Outcome.next.inj h
    rfl
  | wrConfig | wrCapLo | wrCapHi | wrCoefLo => exact Host.Outcome.next.inj h ▸ inInit_keeps State.framesLatchHi rfl rfl
  | wrCoefSel w =>
    cases hg : gridOperand w with
    | none =>
      cases (exec_wrCoefSel_none hg s).symm.trans h
      rfl
    | some g =>
      cases (exec_wrCoefSel_some hg s).symm.trans h
      exact inInit_keeps State.framesLatchHi rfl rfl
  | wrCoefHi w =>
    exact Host.Outcome.next.inj h ▸ inInit_keeps State.framesLatchHi rfl (by rw [commitCoefficient_writes])
  | wrRdCtrl w =>
    obtain rfl : latchReadback w s = t := Host.Outcome.next.inj h
    rw [latchReadback_writes]
  | wrCmd w => exact Host.Outcome.next.inj h ▸ framesLatchHi_runCommand s w
  | cmdInit => exact Host.Outcome.next.inj h ▸ framesLatchHi_commandInit s
  | cmdStart => exact Host.Outcome.next.inj h ▸ framesLatchHi_commandStart s
  | beatNull | beatEos => exact Host.Outcome.next.inj h ▸ framesLatchHi_whenAccepted s rfl
  | beatByte d => exact Host.Outcome.next.inj h ▸ framesLatchHi_whenAccepted s (framesLatchHi_acceptByte s d)
  | beatByteLast d =>
    exact Host.Outcome.next.inj h ▸ framesLatchHi_whenAccepted s (framesLatchHi_acceptLastByte s d)
  | calib x p =>
    simp only [exec, execCalib] at h
    split at h
    · cases h
      rfl
    · cases h
  | reorder => exact Host.Outcome.next.inj h ▸ reorderRecord_framesLatchHi s
  | ingestSpatial => exact Host.Outcome.next.inj h ▸ ingestSpatialFrame_framesLatchHi s
  | ingestRawHist => exact Host.Outcome.next.inj h ▸ ingestRawHistogram_framesLatchHi s
  | applyCalibration => exact Host.Outcome.next.inj h ▸ applyCalibrationFrame_framesLatchHi s
  | ingestCalHist => exact Host.Outcome.next.inj h ▸ ingestCalHistogram_framesLatchHi s
  | frameCommit => exact Host.Outcome.next.inj h ▸ commitFrame_framesLatchHi s

/-- An operation keeps the latch, or it is RD FRAMES_LO and latches the upper half of `frames`. -/
theorem exec_framesLatchHi_cases {i : Instr} {s t : State} (h : exec i s = .next t) :
    t.framesLatchHi = s.framesLatchHi ∨
      (i = .rdFramesLo ∧ t.framesLatchHi.toNat = s.frames.toNat / 2 ^ 32) := by
  by_cases hi : i = .rdFramesLo
  · subst hi
    cases (exec_rdFramesLo s).symm.trans h
    exact .inr ⟨rfl, toNat_highWord s.frames⟩
  · exact .inl (exec_keeps_framesLatchHi hi h)

/-- Settles O28: the latch is kept by quiet turns and by all operations but one, and set to 0 by reset. -/
theorem framesSnapshot : Obligations.FramesSnapshot := by
  refine ⟨fun s => rfl, fun i s t => exec_keeps_framesLatchHi, fun s t h => ?_⟩
  rcases nextTurn_cases s with ⟨-, hn⟩ | ⟨rest, -, -, hn⟩ | ⟨rest, a, more, -, -, hn⟩ | ⟨rest, -, -, hn⟩ |
    ⟨rest, b, more, -, -, hn⟩ | ⟨rest, hs, hn⟩
  · cases (step_of_quiet hn).symm.trans h
    exact .inl rfl
  · cases (step_of_quiet hn).symm.trans h
    exact .inl rfl
  · have he := (step_of_run hn).symm.trans h
    exact (exec_framesLatchHi_cases he).imp_right fun ⟨hi, hlatch⟩ => .inl ⟨_, hi ▸ hn, hlatch⟩
  · cases (step_of_quiet hn).symm.trans h
    exact .inl rfl
  · have he := (step_of_run hn).symm.trans h
    exact (exec_framesLatchHi_cases he).imp_right fun ⟨hi, hlatch⟩ => .inl ⟨_, hi ▸ hn, hlatch⟩
  · cases (step_of_quiet hn).symm.trans h
    exact .inr (.inr ⟨rest, hs, rfl⟩)

end Sys2Proof.Machine
end

section
/-! PROOF. Errors (60_exceptions.md): an access that causes CMD_ERR is ignored but for the flag (R244), and no error stops
the block (R240). -/

namespace Sys2Proof.Machine

/-! ## The causes of CMD_ERR (60_exceptions.md R244) -/

theorem runCommand_illegal {w : Word} (h0 : w ≠ 0#32) (h1 : w ≠ 1#32) (h2 : w ≠ 2#32) (s : State) :
    runCommand w s = raiseCmdError s := by
  rcases runCommand_cases w s with ⟨h, -⟩ | ⟨h, -⟩ | ⟨h, -⟩ | ⟨-, -, -, herror⟩
  · exact absurd h h0
  · exact absurd h h1
  · exact absurd h h2
  · exact herror

theorem cmdErrorCause_wrRdCtrl_iff (w : Word) (s : State) :
    cmdErrorCause (.wrRdCtrl w) s ↔ ¬ legalReadback w := by
  rw [legalReadback, readbackLength_eq, selOperand_toNat, idxOperand_toNat, not_and_or, not_lt, not_lt]
  exact Iff.rfl

/-- A cause other than RD_CTRL sets the flag and has no other effect. -/
theorem exec_of_cmdErrorCause {i : Instr} {s : State} (hc : cmdErrorCause i s) (hi : ∀ w, i ≠ .wrRdCtrl w) :
    exec i s = .next (raiseCmdError s) := by
  cases i with
  | wrId | wrStatus | wrFramesLo | wrFramesHi | wrFill | wrCoefStat | wrRdLo | wrRdHi | cmdIllegal => rfl
  | wrConfig | wrCapLo | wrCapHi | wrCoefLo | wrCoefHi =>
    exact congrArg Host.Outcome.next (inInit_of_not_init hc _)
  | wrCoefSel w =>
    rcases hc with hd | hgrid
    · exact exec_wrCoefSel_not_init hd w
    · exact exec_wrCoefSel_none (gridOperand_of_three hgrid) s
  | wrCmd w =>
    rcases hc with ⟨h0, h1, h2⟩ | ⟨rfl, hd⟩ | ⟨rfl, hd⟩
    · exact congrArg Host.Outcome.next (runCommand_illegal h0 h1 h2 s)
    · exact congrArg Host.Outcome.next (commandInit_of_running hd)
    · exact congrArg Host.Outcome.next (commandStart_of_not_init hd)
  | cmdInit => exact congrArg Host.Outcome.next (commandInit_of_running hc)
  | cmdStart => exact congrArg Host.Outcome.next (commandStart_of_not_init hc)
  | wrRdCtrl w => exact absurd rfl (hi w)
  | rdId | rdCmd | rdStatus | rdConfig | rdCapLo | rdCapHi | rdFramesLo | rdFramesHi | rdFill | rdCoefSel | rdCoefLo
  | rdCoefHi | rdCoefStat | rdRdCtrl | rdRdLo | rdRdHi | cmdNop | beatNull | beatByte | beatByteLast | beatEos
  | reorder | calib | ingestSpatial | ingestRawHist | applyCalibration | ingestCalHist | frameCommit => exact hc.elim

/-- The exception: an illegal selection is stored and clears the read buffer. -/
theorem exec_wrRdCtrl_of_cmdErrorCause {w : Word} {s : State} (hc : cmdErrorCause (.wrRdCtrl w) s) :
    exec (.wrRdCtrl w) s = .next
      { s with rdIdx := idxOperand w, rdSel := selOperand w, rdBuf := 0#64, cmdErr := true } :=
  congrArg Host.Outcome.next (latchReadback_illegal ((cmdErrorCause_wrRdCtrl_iff w s).mp hc) s)

section

variable {i : Instr} {s t : State}

theorem cmdErr_of_cmdErrorCause (h : exec i s = .next t) (hc : cmdErrorCause i s) : t.cmdErr = true := by
  by_cases hi : ∃ w, i = .wrRdCtrl w
  · obtain ⟨w, rfl⟩ := hi
    cases (exec_wrRdCtrl_of_cmdErrorCause hc).symm.trans h
    rfl
  · cases (exec_of_cmdErrorCause hc (not_exists.mp hi)).symm.trans h
    rfl

/-- An accepted CMD INIT, as a command or as the word written to CMD, leaves the flag clear (43_driver.md R193). -/
theorem cmdErr_of_clearsFlags (h : exec i s = .next t) (hclear : clearsFlags i s) : t.cmdErr = false := by
  obtain ⟨hi, hd⟩ := hclear
  have hexec : exec i s = .next (commandInit s) := by rcases hi with rfl | rfl <;> rfl
  obtain rfl := Host.Outcome.next.inj (hexec.symm.trans h)
  rw [commandInit_of_not_running hd]

/-- The flags' rules say what may set `cmd_err` and that it is sticky; the causes do set it, and CMD INIT does clear it. -/
theorem cmdErr_iff (h : exec i s = .next t) :
    t.cmdErr = true ↔ cmdErrorCause i s ∨ (s.cmdErr = true ∧ ¬ clearsFlags i s) := by
  have hrule := (exec_flagRules h).cmd
  constructor
  · intro ht
    have hkept : ¬ clearsFlags i s := fun hclear => by simp [cmdErr_of_clearsFlags h hclear] at ht
    exact (hrule.set ht).symm.imp_right fun hs => ⟨hs, hkept⟩
  · rintro (hc | ⟨hs, hkept⟩)
    · exact cmdErr_of_cmdErrorCause h hc
    · exact hrule.stays hkept hs

end

/-- Settles O55: the flag's exact rule, and the next state of each cause. -/
theorem commandErrorCauses : Obligations.CommandErrorCauses := by
  intro i s t h
  refine ⟨cmdErr_iff h, fun hc hi => ?_, fun w hw hc => ?_⟩
  · exact Host.Outcome.next.inj (h.symm.trans (exec_of_cmdErrorCause hc hi))
  · subst hw
    cases (exec_wrRdCtrl_of_cmdErrorCause hc).symm.trans h
    exact ⟨rfl, idxOperand_toNat w, selOperand_toNat w⟩

/-! ## No error stops the block (60_exceptions.md R240) -/

theorem Completes.of_quiet {s t : State} (h : nextTurn s = .quiet t) : Completes s := ⟨t, step_of_quiet h⟩

/-- An operation that always answers a next state completes its step. -/
theorem Completes.of_run {s u : State} {i : Instr} (h : nextTurn s = .run i u) (hi : Updates i) : Completes s := by
  obtain ⟨f, -, hexec⟩ := hi
  exact ⟨f u, (step_of_run h).trans (hexec u)⟩

/-- Settles O56: a quiet turn completes, and what is fetched, an access or a beat, is never the one operation that can
fault (CALIB). -/
theorem stepNeverStops : Obligations.StepNeverStops := by
  intro s
  rcases nextTurn_cases s with ⟨-, hn⟩ | ⟨_, -, -, hn⟩ | ⟨_, a, _, -, -, hn⟩ | ⟨_, -, -, hn⟩ | ⟨_, b, _, -, -, hn⟩ |
    ⟨_, -, hn⟩
  · exact .of_quiet hn
  · exact .of_quiet hn
  · exact .of_run hn (updates_decodeBus a)
  · exact .of_quiet hn
  · exact .of_run hn (updates_decodeBeat b)
  · exact .of_quiet hn

end Sys2Proof.Machine
end

section
/-! PROOF. The reset event (70_reset_and_hazards.md R260): what the block's grids and arrays read after it. -/

namespace Sys2Proof.Machine

/-- A reset turn is a step to the state that the reset event leaves. -/
theorem step_reset {s : State} {rest : List Agent} (hs : s.sched = .reset :: rest) :
    step s = .next (resetEvent { s with sched := rest }) :=
  step_of_quiet (nextTurn_reset hs)

theorem cnt_resetEvent (s : State) (g : Grid) : gridGet (resetEvent s).cnt g = 0 := by
  cases g <;> rfl

theorem ovf_resetEvent (s : State) (g : Grid) : gridGet (resetEvent s).ovf g = false := by
  cases g <;> rfl

theorem sumAt_resetEvent (s : State) (p : Nat) : sumAt (resetEvent s) p = 0#64 := Cells.get_nil _ _

theorem rawhistAt_resetEvent (s : State) (b : Nat) : rawhistAt (resetEvent s) b = 0#64 := Cells.get_nil _ _

theorem calhistAt_resetEvent (s : State) (b : Nat) : calhistAt (resetEvent s) b = 0#64 := Cells.get_nil _ _

/-- The table lists nothing after reset, whichever the grid: every entry is the one that the new reset drew (log 8). -/
theorem coefAt_resetEvent (s : State) (g : Grid) (p : Nat) :
    coefAt (resetEvent s) g p = Config.coefUnspecified (s.resets + 1) (gridCode g) p := by
  cases g <;> exact Cells.get_nil _ _

/-- The frame buffer lists nothing after reset: every byte is the one that the new reset drew (log 9). -/
theorem fbufAt_resetEvent (s : State) (j : Nat) :
    fbufAt (resetEvent s) j = Config.fbufUnspecified (s.resets + 1) j := Cells.get_nil _ _

/-- Settles O10: the step is the reset event. Its registers and flags are those of `State.reset`, what the agents keep is
as before, and the lemmas above read its grids and arrays. -/
theorem resetEventSetsEveryElement : Obligations.ResetEventSetsEveryElement := by
  intro s rest hs
  exact ⟨_, step_reset hs, rfl, rfl, rfl, rfl, rfl, rfl, fun g => ⟨cnt_resetEvent _ g, ovf_resetEvent _ g⟩, rfl, rfl,
    sumAt_resetEvent _, rawhistAt_resetEvent _, calhistAt_resetEvent _, rfl,
    rfl, rfl, rfl, rfl, rfl, rfl, rfl, rfl,
    coefAt_resetEvent _, fbufAt_resetEvent _, rfl, rfl, rfl, rfl, rfl⟩

end Sys2Proof.Machine
end
